-- ==== Sys2Proof/Word.lean ====
section
/-! DEFINITION. The widths of the block (00_scope.md R7) and the plain data its operations take, return and
emit: callback handles, decode results, inputs as they reach the block. No behaviour is defined here. -/

namespace Sys2Proof

/-- A backend command, data or capture word (R7 `WORD_W`). -/
abbrev Word := BitVec 32

/-- A byte. -/
abbrev Byte := BitVec 8

/-- A device address (R7 `ADDR_W`); 2 to 15 are valid, 0 and 1 reserved. -/
abbrev Addr := BitVec 4

/-- A register of a device (R7 `REG_W`). -/
abbrev Reg := BitVec 2

/-- A raw scancode, bits 6:0 of a scancode byte (30_encoding.md R77). -/
abbrev Scancode := BitVec 7

/-- The key codes that a state holds. R8 leaves the type `KeyCode` open: every operation on key codes takes the type
as an argument (`keysAfterDown`, `keysAfterUp`, `keysAfterCode`), and the state numbers the codes of that type, as no
rule does more with two codes than compare them (the default, bytes, are the numbers below 256). DESIGN CHOICE,
log 5. -/
abbrev KeyCode := Nat

/-- The opaque `pin` argument of `init` (10_state.md R15); no rule reads it. DESIGN CHOICE of its form, log 28. -/
structure Pin where
  tag : Nat
  deriving DecidableEq, Repr

/-- A callback handle `CB` (10_state.md R15): the keyboard sink of R160, or any other consumer, which
the block only calls. DESIGN CHOICE of its form, log 28. -/
inductive Callback where
  | kbdSink
  | other (id : Nat)
  deriving DecidableEq, Repr

/-- The result of the frame decode (40_frame_codec.md R106). The length of `frame p` is that of `p`. -/
inductive FrameResult where
  | noFrame
  | frame (payload : List Byte)
  deriving DecidableEq, Repr

/-- The level the engine forces on the bus line (20_memory.md R46 `BE.force_line`). -/
inductive Level where
  | low
  | high
  deriving DecidableEq, Repr

/-- The parameter `EMPTY_POLICY` (00_scope.md R8, 42_polling_events.md R146). -/
inductive EmptyPolicy where
  | never
  | onStartFound
  | always
  deriving DecidableEq, Repr

/-- What `UNPACK` answers: nine bytes and a count from 0 to 9 (00_scope.md R8). -/
abbrev Unpacked := Vector Byte 9 × Fin 10

/-- The parameter `UNPACK` (00_scope.md R8): the default of 40_frame_codec.md R105, or a given function as plain
data. `graph` lists the answers given, the first for a list of words counting, and `rest` names the free function
that answers every list not in it (`Config.unpackFree`). DESIGN CHOICE of the form, log 15. -/
inductive UnpackPolicy where
  | keepAll
  | given (graph : List (List Word × Unpacked)) (rest : Nat)
  deriving DecidableEq, Repr

/-- The nine modifier flags (10_state.md R19); `true` means held. -/
structure ModFlags where
  lShift : Bool
  rShift : Bool
  lCtrl : Bool
  rCtrl : Bool
  lAlt : Bool
  rAlt : Bool
  lGui : Bool
  rGui : Bool
  menu : Bool
  deriving DecidableEq, Repr

/-- All nine flags clear (10_state.md R26). -/
def ModFlags.none : ModFlags :=
  { lShift := false, rShift := false, lCtrl := false, rCtrl := false, lAlt := false, rAlt := false,
    lGui := false, rGui := false, menu := false }

/-- The name on a line of the script notation (30_encoding.md R83), or the name a rule's pseudocode
gives a function that is no line of that notation. -/
inductive OpName where
  | init | reset | flush | talk | listen | srqp | tick | srq | eor | consume | sc | read
  | unpack | decodeFrame | advance | dispatch | kbdSink | ringPut
  deriving DecidableEq, Repr

/-- An argument of a line: values before any check of their range (30_encoding.md R82, R83). -/
inductive Arg where
  | num (n : Nat)
  | nums (ns : List Nat)
  | pin (p : Pin)
  | callback (c : Callback)
  | frame (r : FrameResult)
  deriving DecidableEq, Repr

/-- One input as it reaches the block, before decoding. The three bit formats are the spec's (CW, LF, SB of
30_encoding.md); `call` is a line of its script notation (R82, R83: these operations have no bit encoding);
`raw` is any other number of bits, which no format has. DESIGN CHOICE of the form, log 11. -/
inductive Packet where
  | cw (w : Word)
  | lf (ws : List Word)
  | sb (b : Byte)
  | call (name : OpName) (args : List Arg)
  | raw (nbits w : Nat)
  deriving DecidableEq, Repr

/-- Why the decoder rejects an input. -/
inductive DecodeError where
  /-- A number of bits that no format of 30_encoding.md has. -/
  | noSuchFormat
  /-- A command byte of the last row of R79: not defined by the source. -/
  | undefinedCommandByte
  /-- A listen frame with no word, or whose header stands for no length 0 to 8 (R73). -/
  | listenHeader
  /-- A listen frame with the wrong number of words or a padding byte that is not zero (R72, R74). -/
  | listenPadding
  /-- A line whose arguments are not those of its operation, in number or in kind (R82, R83). -/
  | arguments
  /-- An argument that does not fit the width of its operand. -/
  | argumentWidth
  /-- Operands outside the operation's domain (WellFormed.lean). -/
  | illFormed
  deriving DecidableEq, Repr

end Sys2Proof
end

