-- ==== Sys2Proof/Config.lean ====
section
/-! DEFINITION. What the spec leaves to the implementation: the parameters of 00_scope.md R8 as one record of
plain data, the constraints R8 puts on them, the defaults R8 recommends, and the values nothing constrains. -/

namespace Sys2Proof

/-- The named parameters of R8. A machine holds one record for ever (State.cfg); a statement about every
state is a statement about every choice of them (log 1). -/
structure Params where
  /-- `FLUSH_NIBBLE`, the low nibble of a Flush command byte (R71). -/
  flushNibble : BitVec 4
  /-- `SC_LGUI`. -/
  scLGui : Scancode
  /-- `SC_LSHIFT`. -/
  scLShift : Scancode
  /-- `SC_RSHIFT`. -/
  scRShift : Scancode
  /-- `SC_LCTRL`. -/
  scLCtrl : Scancode
  /-- `SC_LALT`. -/
  scLAlt : Scancode
  /-- `NOKEY`, the sentinel of the table and of empty key slots. -/
  noKey : KeyCode
  /-- `XLAT[0..255]`, the Scancode Translation Table (10_state.md R21), read-only. -/
  xlat : Vector KeyCode 256
  /-- `RING_CAP`. -/
  ringCap : Nat
  /-- `KBD_ADDR`. -/
  kbdAddr : Addr
  /-- `KBD_REG`. -/
  kbdReg : Reg
  /-- `INIT_ADDR`. -/
  initAddr : Addr
  /-- `EMPTY_POLICY`. -/
  emptyPolicy : EmptyPolicy
  /-- `UNPACK`. -/
  unpack : UnpackPolicy
  /-- `TICK_PERIOD`, in time units. -/
  tickPeriod : Nat
  /-- `RESET_LOW_MIN`, in time units. -/
  resetLowMin : Nat
  deriving DecidableEq, Repr

namespace Params

/-- The constraints R8 puts on the parameters: bits [3:2] of `FLUSH_NIBBLE` are not 0b10 or 0b11, the five
modifier scancodes are pairwise different, `RING_CAP >= 1`, `KBD_ADDR` and `INIT_ADDR` are valid addresses,
and the reset window is at least 3 time units. -/
def wf (c : Params) : Bool :=
  c.flushNibble.extractLsb' 2 2 != 0b10#2 && c.flushNibble.extractLsb' 2 2 != 0b11#2
    && decide ([c.scLGui, c.scLShift, c.scRShift, c.scLCtrl, c.scLAlt].Nodup)
    && decide (1 ≤ c.ringCap) && decide (2 ≤ c.kbdAddr.toNat) && decide (2 ≤ c.initAddr.toNat)
    && decide (3 ≤ c.resetLowMin)

end Params

namespace Config

/-- The synthetic table `XLAT_T` of 95_test_vectors.md section 0: entry `s` is `s + 1` for `s` in 0..126, and
0 elsewhere. DESIGN CHOICE as the table at reset, log 4: the source gives no table. -/
def xlatT : Vector KeyCode 256 :=
  ⟨((List.range 256).map fun n => if n < 127 then n + 1 else 0).toArray, by simp⟩

/-- The defaults R8 recommends (logs 1 to 5, 15, 16, 19). `flushNibble` and the five scancodes are PRESUMED:
R8 marks them as general knowledge, not in the source. -/
def defaults : Params where
  flushNibble := 0b0001#4
  scLGui := 0x37#7
  scLShift := 0x38#7
  scRShift := 0x7B#7
  scLCtrl := 0x36#7
  scLAlt := 0x3A#7
  noKey := 0
  xlat := xlatT
  ringCap := 16
  kbdAddr := 2#4
  kbdReg := 0#2
  initAddr := 2#4
  emptyPolicy := .onStartFound
  unpack := .keepAll
  tickPeriod := 11
  resetLowMin := 3

/-- The byte that `CAP[i]` holds, for `i` at `CAP_N` or above, after the `n`-th unpack: 40_frame_codec.md R105
says those bytes are "not kept and not defined". A free value (log 14). -/
opaque freeCapByte : (n i : Nat) → Byte

/-- What an `UNPACK` other than the default answers where its graph gives nothing (00_scope.md R8: any total function
from a list of words to nine bytes and a count 0..9), the `n`-th such function. Free (log 15). -/
opaque unpackFree : (n : Nat) → List Word → Unpacked

end Config

end Sys2Proof
end

