-- ==== Sys2Proof/Machine/Operands.lean ====
section
/-! DEFINITION. Operand assembly (30_encoding.md R76, complete) and the arithmetic of the codec
(40_frame_codec.md R107): pure functions of their arguments. -/

namespace Sys2Proof.Machine

/-! ## Words and bytes, 20_memory.md R49 -/

/-- `BE32(b0, b1, b2, b3)`, R49: `b0` in bits 31:24. -/
def be32 (b0 b1 b2 b3 : Byte) : Word :=
  (b0.setWidth 32 <<< 24) ||| (b1.setWidth 32 <<< 16) ||| (b2.setWidth 32 <<< 8) ||| b3.setWidth 32

/-- `BYTES(w)`, R49: most significant byte first. -/
def bytesOf (w : Word) : List Byte :=
  [w.extractLsb' 24 8, w.extractLsb' 16 8, w.extractLsb' 8 8, w.extractLsb' 0 8]

/-- `BE32` of each group of four bytes, in order (R74). A last group of fewer than four, which R104 never
makes, is padded with zeros. -/
def packWords : List Byte → List Word
  | b0 :: b1 :: b2 :: b3 :: rest => be32 b0 b1 b2 b3 :: packWords rest
  | [b0, b1, b2] => [be32 b0 b1 b2 0]
  | [b0, b1] => [be32 b0 b1 0 0]
  | [b0] => [be32 b0 0 0 0]
  | [] => []

/-! ## Command words, 30_encoding.md R70, R71 -/

/-- `KIND_TALK`, 00_scope.md R7. -/
def kindTalk : BitVec 2 := 0b11#2

/-- `KIND_LISTEN`, 00_scope.md R7. -/
def kindListen : BitVec 2 := 0b10#2

/-- `zext_32(cb) << 24` (R76): the command byte in bits 31:24, zeros below (R70). -/
def commandWord (cb : Byte) : Word := cb.setWidth 32 <<< 24

/-- `address:4 | kind:2 | register:2` (R71): `(a << 4) | (kind << 2) | r` (R76). -/
def addressedByte (a : Addr) (kind : BitVec 2) (r : Reg) : Byte :=
  (a.setWidth 8 <<< 4) ||| (kind.setWidth 8 <<< 2) ||| r.setWidth 8

/-- `address:4 | FLUSH_NIBBLE:4` (R71): `(a << 4) | FLUSH_NIBBLE` (R76). -/
def flushByte (a : Addr) (nibble : BitVec 4) : Byte := (a.setWidth 8 <<< 4) ||| nibble.setWidth 8

/-- `CmdReset()`, 40_frame_codec.md R100. -/
def cmdResetWord : Word := 0#32

/-- `CmdFlush(a)`, R101. -/
def cmdFlushWord (nibble : BitVec 4) (a : Addr) : Word := commandWord (flushByte a nibble)

/-- `CmdTalk(a, r)`, R102. -/
def cmdTalkWord (a : Addr) (r : Reg) : Word := commandWord (addressedByte a kindTalk r)

/-- `CmdListen(a, r)`, R103. -/
def cmdListenWord (a : Addr) (r : Reg) : Word := commandWord (addressedByte a kindListen r)

/-! ## The listen frame, 30_encoding.md R72 to R74 -/

/-- `LISTEN_MAX`, 00_scope.md R7. -/
def listenMax : Nat := 8

/-- The header byte `H = (8 * len - 1) mod 256` (R73), computed in the integers (40_frame_codec.md R107). -/
def listenHeader (len : Nat) : Byte := BitVec.ofInt 8 (8 * (len : Int) - 1)

/-- `nwords = ceil((len + 1) / 4)`, as R107 computes it. -/
def listenWordCount (len : Nat) : Nat := (len + 4) / 4

/-- The frame bytes `L = [H] ++ p ++ zeros`, `4 * nwords` of them (R104). -/
def listenBytes (p : List Byte) : List Byte :=
  listenHeader p.length :: p ++ List.replicate (4 * listenWordCount p.length - p.length - 1) 0#8

/-- `EncodeListen(p)`, R104. -/
def encodeListen (p : List Byte) : List Word := packWords (listenBytes p)

/-! ## The capture frame, 40_frame_codec.md R105, R106 -/

/-- `CAP_BYTES`, 00_scope.md R7. -/
def capBytes : Nat := 9

/-- The answer of an `UNPACK` other than the default: as its graph gives it, else free (00_scope.md R8). -/
def unpackGiven (graph : List (List Word × Unpacked)) (rest : Nat) (ws : List Word) : Unpacked :=
  match graph.find? (·.1 == ws) with
  | some entry => entry.2
  | none => Config.unpackFree rest ws

/-- The bytes `CAP[0..CAP_N-1]` of an answer: as many as its count says. -/
def unpackedBytes (u : Unpacked) : List Byte := u.1.toList.take u.2.val

/-- `UNPACK(ws)` as the list `CAP[0..CAP_N-1]`, so that `CAP_N` is its length, at most 9. The default is R105:
every byte of every word, most significant first, the first nine kept. -/
def unpackBytes : UnpackPolicy → List Word → List Byte
  | .keepAll, ws => (ws.flatMap bytesOf).take capBytes
  | .given graph rest, ws => unpackedBytes (unpackGiven graph rest ws)

/-- The left shift by one with the carry of R106: each byte moves up by one bit and takes bit 7 of the byte
after it, the last byte takes 0. -/
def shiftBytes : List Byte → List Byte
  | [] => []
  | [b] => [b <<< 1]
  | b :: c :: rest => ((b <<< 1) ||| (c >>> 7)) :: shiftBytes (c :: rest)

/-- `DecodeFrame` (R106) on the captured bytes: the result, and the bytes as the in-place shift leaves them.
Bytes before `start`, the first non-zero one, stay; the last shifted byte is no part of the payload. -/
def decodeBytes (bs : List Byte) : FrameResult × List Byte :=
  match bs.dropWhile (· == 0#8) with
  | [] => (.noFrame, bs)
  | b :: rest =>
    (.frame (shiftBytes (b :: rest)).dropLast, bs.takeWhile (· == 0#8) ++ shiftBytes (b :: rest))

/-! ## Address rotation, 42_polling_events.md R140 -/

/-- `ADVANCE(a)`, R140. -/
def advanceAddr (a : Addr) : Addr := if a.toNat ≥ 15 ∨ a.toNat ≤ 1 then 2#4 else a + 1#4

/-! ## The scancode byte, 30_encoding.md R77 -/

/-- Bit 7 of a scancode byte: the release flag (R77). -/
def releaseBit (b : Byte) : Bool := b.getLsbD 7

/-- Bits 6:0 of a scancode byte (R77). -/
def scancodeOf (b : Byte) : Scancode := b.setWidth 7

/-- The scancode byte of a release flag and a scancode (R77). -/
def scancodeByte (release : Bool) (sc : Scancode) : Byte :=
  ((BitVec.ofBool release).setWidth 8 <<< 7) ||| sc.setWidth 8

/-- Whether a scancode is one of the five modifiers (R77, 43_scancode_decoder.md R163). -/
def isModifier (c : Params) (sc : Scancode) : Bool :=
  sc == c.scLGui || sc == c.scLShift || sc == c.scRShift || sc == c.scLCtrl || sc == c.scLAlt

/-- `XLAT[zext_8(sc)]` (R76, R163), of a table with codes of any type: only entries 0 to 127 are in reach. -/
def lookupCode {K : Type} (xlat : Vector K 256) (sc : Scancode) : K :=
  xlat[sc.toNat]'(by have := sc.isLt; omega)

/-- `XLAT[zext_8(sc)]` of the machine's own table. -/
def translate (c : Params) (sc : Scancode) : KeyCode := lookupCode c.xlat sc

end Sys2Proof.Machine
end

