-- ==== Sys2Proof/Machine/State.lean ====
section
/-! DEFINITION. The state of the block as plain data: every element of 10_state.md R10, R23 and R26, the
parameters of 00_scope.md R8 and the model's own fields for the inputs and outputs of a step; what a step emits
and returns; why a step can stop; and the power-on state. -/

namespace Sys2Proof.Machine

/-- The error statuses of 60_exceptions.md R181, complete. -/
inductive ErrorStatus where
  /-- `E_CALLER_MISUSE`: `listen` with more than 8 bytes. -/
  | callerMisuse
  /-- `E_UNINIT`: a host operation but `init` while `INIT = 0`. -/
  | uninit
  /-- `E_REINIT`: `init` while `INIT = 1`. -/
  | reinit
  /-- `E_BAD_ADDRESS`: an address not in 2..15. -/
  | badAddress
  /-- `E_BAD_REGISTER`: a register not in 0..3. -/
  | badRegister
  deriving DecidableEq, Repr

/-- What a step emits at its ports, in order (00_scope.md R6, 20_memory.md R46). -/
inductive Output where
  | push (w : Word)
  | pop (w : Word)
  | forceFlush
  | restart
  | disable
  | enable
  | clearCaptures
  | forceLine (l : Level)
  | wait (d : Nat)
  | onData (address register : Byte) (payload : List Byte) (length : Nat)
  deriving DecidableEq, Repr

/-- What a step returns (00_scope.md R6): the result of a host query, or of a function of the table run alone
(log 22). -/
inductive Ret where
  | none
  | bool (b : Bool)
  | keyState (keys : Vector KeyCode 6) (mods : ModFlags)
  | word (w : Word)
  | words (ws : List Word)
  | capture (bytes : List Byte) (count : Nat)
  | frame (r : FrameResult)
  | addr (a : Addr)
  deriving DecidableEq, Repr

/-- The periodic timer (10_state.md R26, last row). -/
inductive Timer where
  | stopped
  | armed (period : Nat)
  deriving DecidableEq, Repr

/-- The backend's interface state, 10_state.md R23: what the engine last left there (log 12). -/
structure Backend where
  /-- `TXQ`, oldest first. -/
  txq : List Word
  /-- `RXQ`, oldest first. -/
  rxq : List Word
  /-- `RESID`. -/
  resid : List Bool
  /-- `BE_PC`; 0 is the start of the timing program. -/
  pc : Nat
  /-- `BE_ENABLED`. -/
  enabled : Bool
  /-- `FLAG_SRQ`. -/
  flagSrq : Bool
  /-- `FLAG_EOR`. -/
  flagEor : Bool
  /-- `LINE`. -/
  line : Level
  deriving DecidableEq, Repr

/-- The state of the machine. -/
structure State where
  /-- `INIT`, 10_state.md R15. -/
  init : Bool
  /-- `CB`, R15. -/
  cb : Callback
  /-- `PIN`, R15. -/
  pin : Pin
  /-- `CUR_ADDR`, R11. -/
  curAddr : Addr
  /-- `CUR_REG`, R11. -/
  curReg : Reg
  /-- `NEXT_ADDR`, R11. -/
  nextAddr : Addr
  /-- `NEXT_REG`, R11. -/
  nextReg : Reg
  /-- `CAP[0..8]`, R12. -/
  cap : Vector Byte 9
  /-- `CAP_N`, R12. -/
  capN : Fin 10
  /-- `SRQ_PENDING`, R16. -/
  srqPending : Bool
  /-- `RING`, oldest byte first, R20. -/
  ring : List Byte
  /-- `KEYS[0..5]`, R18. -/
  keys : Vector KeyCode 6
  /-- The nine `MOD_*` flags, R19. -/
  mods : ModFlags
  /-- The parameters of 00_scope.md R8, `XLAT` (R21) among them; no step writes them. -/
  cfg : Params
  /-- The timer, R26. -/
  timer : Timer
  /-- Whether the bus-signal interrupt's handler is installed and enabled, 41_bus_master_ops.md R120. -/
  busIrq : Bool
  /-- The backend's interface state, R23. -/
  be : Backend
  /-- MODEL: how many unpacks there have been, the argument of `Config.freeCapByte` (log 14). -/
  freeCount : Nat
  /-- MODEL: the inputs the environment has chosen and the block has not taken, oldest first (log 10). -/
  inputs : List Packet
  /-- MODEL: the outputs of the latest step, in order (log 9). -/
  out : List Output
  /-- MODEL: what the latest step returned (log 9). -/
  ret : Ret
  /-- MODEL: the error status the latest step raised (log 8). -/
  status : Option ErrorStatus
  deriving DecidableEq, Repr

/-- Why the machine stops with a fault. -/
inductive Fault where
  /-- Raised by KBD.SINK when its length is above the number of payload bytes, so that R160's loop would read
  past the payload; 30_encoding.md R78 gives the tuple `length = |payload|`. Safe: no claim is made of it. -/
  | payloadIndex
  deriving DecidableEq, Repr

/-- Why an input gets no step. -/
inductive Refusal where
  /-- Raised by an arm of exec whose operation has no meaning in this model yet. Safe. -/
  | notModelled (mnemonic : String)
  /-- Raised by TICK, SRQ and EOR while `INIT = 0`: 60_exceptions.md R184 gives them no transition there. Safe. -/
  | eventNotEnabled
  /-- Raised by ENC.LISTEN for more than 8 bytes, where 40_frame_codec.md R104 does not define it. Safe. -/
  | outsideDomain
  /-- Raised by the step for an input the decoder rejects. Safe. -/
  | undecodable (e : DecodeError)
  deriving DecidableEq, Repr

/-- The backend at power-on; R26 leaves it unspecified. DESIGN CHOICE, log 6. -/
def Backend.reset : Backend :=
  { txq := [], rxq := [], resid := [], pc := 0, enabled := false, flagSrq := false, flagEor := false,
    line := .high }

/-- The machine at power-on (10_state.md R26): `INIT = 0`, the timer not running, no handler installed. R26
leaves every other element unspecified; its value here is a DESIGN CHOICE of log 6, and that of the parameters
is in logs 1 to 5, 15, 16. -/
def State.reset : State :=
  { init := false, cb := .other 0, pin := ⟨0⟩, curAddr := 0, curReg := 0, nextAddr := 0, nextReg := 0,
    cap := Vector.replicate 9 0, capN := 0, srqPending := false, ring := [],
    keys := Vector.replicate 6 Config.defaults.noKey, mods := ModFlags.none, cfg := Config.defaults,
    timer := .stopped, busIrq := false, be := Backend.reset, freeCount := 0, inputs := [], out := [],
    ret := .none, status := none }

end Sys2Proof.Machine
end

