-- ==== Sys2Proof/Machine/Flags.lean ====
section
/-! DEFINITION. The flags of the block and every computation of one: `INIT` and `SRQ_PENDING` (10_state.md R15,
R16), the nine modifier flags (R19) and the backend's two status flags (R23). There are no condition codes
(R17). -/

namespace Sys2Proof.Machine

/-- `SRQ_PENDING <- 1`, 42_polling_events.md R143. -/
def State.setSrqPending (s : State) : State := { s with srqPending := true }

/-- `SRQ_PENDING <- 0`, 41_bus_master_ops.md R120, R125. -/
def State.clearSrqPending (s : State) : State := { s with srqPending := false }

/-- The `Srq` step consumes `FLAG_SRQ` (R23, 60_exceptions.md R190). -/
def State.consumeFlagSrq (s : State) : State := { s with be := { s.be with flagSrq := false } }

/-- The `Eor` step consumes `FLAG_EOR` (R23, 60_exceptions.md R190). -/
def State.consumeFlagEor (s : State) : State := { s with be := { s.be with flagEor := false } }

/-- The modifier flags after `ScMod(sc, release)`, 43_scancode_decoder.md R164: the flag of `sc` becomes
`NOT release`, five tests in order. -/
def modsAfter (c : Params) (sc : Scancode) (release : Bool) (m : ModFlags) : ModFlags :=
  let v := !release
  let m := if sc = c.scLGui then { m with lGui := v } else m
  let m := if sc = c.scLShift then { m with lShift := v } else m
  let m := if sc = c.scRShift then { m with rShift := v } else m
  let m := if sc = c.scLCtrl then { m with lCtrl := v } else m
  if sc = c.scLAlt then { m with lAlt := v } else m

end Sys2Proof.Machine
end

