-- ==== Sys2Proof/Machine/Ops.lean ====
section
/-! DEFINITION. The shared operations over the state: raising an error status, the checks of the host
operations, the backend port (20_memory.md R46, R47), the Raw Capture Buffer, the ring, the key list, and the
pieces of a step that more than one operation of the table runs. -/

namespace Sys2Proof.Machine

/-- What every meaning answers. -/
abbrev Result := Host.Outcome State Fault Refusal

/-! ## Outputs and errors -/

/-- A step begins with nothing emitted, returned or raised (00_scope.md R6: outputs belong to a step). -/
def State.clearOutputs (s : State) : State := { s with out := [], ret := .none, status := none }

/-- The step's return value. -/
def State.returning (r : Ret) (s : State) : State := { s with ret := r }

/-- `raise <Error>` (00_scope.md section 7, 60_exceptions.md R181): the step writes no state and emits no output,
and the named status is what the caller gets. There is no saved register and no handler (R192), and nothing to
return from (R193). -/
def raise (e : ErrorStatus) (s : State) : State := { s.clearOutputs with status := some e }

/-- A host operation (41_bus_master_ops.md R126): the first failing check decides the error; with none the body
runs. -/
def hostOp (checks : List (Option ErrorStatus)) (body : State → State) (s : State) : Result :=
  match checks.findSome? id with
  | some e => .next (raise e s)
  | none => .next (body s.clearOutputs)

/-- An event handler: it has a transition only while `INIT = 1` (60_exceptions.md R184). -/
def handler (body : State → State) (s : State) : Result :=
  if s.init then .next (body s.clearOutputs) else .refused .eventNotEnabled

/-- A function of the table run alone (log 22): total, with no check. -/
def function (body : State → State) (s : State) : Result := .next (body s.clearOutputs)

/-- The first check of every host operation but `init` (R126, R184). -/
def checkInit (s : State) : Option ErrorStatus := if s.init then none else some .uninit

/-- The check of `init` (R120). -/
def checkNotInit (s : State) : Option ErrorStatus := if s.init then some .reinit else none

/-- The address check (R122 to R124, 60_exceptions.md R185). -/
def checkAddress (a : Nat) : Option ErrorStatus := if a < 2 ∨ a > 15 then some .badAddress else none

/-- The register check (R123, R124, 60_exceptions.md R186). -/
def checkRegister (r : Nat) : Option ErrorStatus := if r > 3 then some .badRegister else none

/-- The payload check of `listen` (R124, 60_exceptions.md R183). -/
def checkPayload (p : List Byte) : Option ErrorStatus :=
  if p.length > listenMax then some .callerMisuse else none

/-! ## The backend port, 20_memory.md R46 -/

/-- One more output of the step. -/
def State.emit (o : Output) (s : State) : State := { s with out := s.out ++ [o] }

/-- `BE.push(w)`: never refuses (R48; log 13). -/
def bePush (w : Word) (s : State) : State :=
  State.emit (.push w) { s with be := { s.be with txq := s.be.txq ++ [w] } }

/-- `BE.push` of each word in order. -/
def bePushAll : List Word → State → State
  | [], s => s
  | w :: ws, s => bePushAll ws (bePush w s)

/-- `BE.pop()`: defined only when `RXQ` holds a word. -/
def bePop (s : State) : Option (Word × State) :=
  match s.be.rxq with
  | [] => none
  | w :: ws => some (w, State.emit (.pop w) { s with be := { s.be with rxq := ws } })

/-- `BE.rx_empty()`. -/
def beRxEmpty (s : State) : Bool := s.be.rxq.isEmpty

/-- `BE.force_flush()`: after it `RXQ` holds `ws`, the words the backend has captured by now with the residual
bits as a last word. The block cannot compute them: the environment gives them (R47; log 12). -/
def beForceFlush (ws : List Word) (s : State) : State :=
  State.emit .forceFlush { s with be := { s.be with rxq := ws, resid := [] } }

/-- `BE.restart()`. -/
def beRestart (s : State) : State := State.emit .restart { s with be := { s.be with pc := 0 } }

/-- `BE.disable()`. -/
def beDisable (s : State) : State := State.emit .disable { s with be := { s.be with enabled := false } }

/-- `BE.enable()`. -/
def beEnable (s : State) : State := State.emit .enable { s with be := { s.be with enabled := true } }

/-- `BE.clear_captures()`. -/
def beClearCaptures (s : State) : State :=
  State.emit .clearCaptures { s with be := { s.be with rxq := [], resid := [] } }

/-- `BE.force_line(l)`. -/
def beForceLine (l : Level) (s : State) : State :=
  State.emit (.forceLine l) { s with be := { s.be with line := l } }

/-- `BE.wait(d)`: an output label; no rule reads time (60_exceptions.md R198). -/
def beWait (d : Nat) (s : State) : State := s.emit (.wait d)

/-- The loop of R47, at most `n` times round. -/
def drainLoop : Nat → State → List Word × State
  | 0, s => ([], s)
  | n + 1, s =>
    match bePop s with
    | none => ([], s)
    | some (w, s') => let r := drainLoop n s'; (w :: r.1, r.2)

/-- `drain()`, R47: pops until `RXQ` is empty, which is as many times as it holds words. -/
def drain (s : State) : List Word × State := drainLoop s.be.rxq.length s

/-- The completion sequence of both bus signals (60_exceptions.md R188): `BE.force_flush(); drain();
BE.restart()`, and the words drained. -/
def completePoll (ws : List Word) (s : State) : List Word × State :=
  let d := drain (beForceFlush ws s)
  (d.1, beRestart d.2)

/-! ## The Raw Capture Buffer, 10_state.md R12 -/

/-- `CAP_N <- 0`. -/
def State.clearCapture (s : State) : State := { s with capN := 0 }

/-- The captured bytes `CAP[0..CAP_N-1]`. -/
def State.captured (s : State) : List Byte := s.cap.toList.take s.capN.val

/-- `(CAP, CAP_N) <- UNPACK(ws)`, 40_frame_codec.md R105: the bytes at `CAP_N` and above are not defined, so they
take free values (log 14). -/
def State.loadCapture (ws : List Word) (s : State) : State :=
  let bs := unpackBytes s.cfg.unpack ws
  { s with
    cap := Vector.ofFn fun i => bs.getD i.val (Config.freeCapByte s.freeCount i.val)
    capN := ⟨min capBytes bs.length, by have : capBytes = 9 := rfl; omega⟩
    freeCount := s.freeCount + 1 }

/-- `DecodeFrame(CAP, CAP_N)` on the buffer of the state (R106): the result, and the buffer shifted in place. -/
def State.decodeCapture (s : State) : FrameResult × State :=
  let r := decodeBytes s.captured
  (r.1, { s with cap := Vector.ofFn fun i => r.2.getD i.val s.cap[i] })

/-! ## The ring buffer, 10_state.md R20 -/

/-- `RING` after `RingPut(b)`, 43_scancode_decoder.md R161: a full ring first loses its oldest byte. -/
def ringAfterPut (cap : Nat) (b : Byte) (ring : List Byte) : List Byte :=
  (if ring.length = cap then ring.drop 1 else ring) ++ [b]

/-- `RingPut(b)`, R161. -/
def ringPut (b : Byte) (s : State) : State := { s with ring := ringAfterPut s.cfg.ringCap b s.ring }

/-- `RingPut` of each byte in order (R160). -/
def ringPutAll : List Byte → State → State
  | [], s => s
  | b :: bs, s => ringPutAll bs (ringPut b s)

/-- `KbdSink`, R160, of a tuple whose length is that of its payload: the filter on `KBD_ADDR` and `KBD_REG`, then
every byte in order. -/
def kbdSink (address register : Byte) (payload : List Byte) (s : State) : State :=
  if address = s.cfg.kbdAddr.setWidth 8 ∧ register = s.cfg.kbdReg.setWidth 8 then ringPutAll payload s else s

/-! ## The callback, 42_polling_events.md R146 -/

/-- What the registered callback does: the keyboard sink fills the ring; any other consumer is outside the
block. -/
def runCallback (address register : Byte) (payload : List Byte) (s : State) : State :=
  match s.cb with
  | .kbdSink => kbdSink address register payload s
  | .other _ => s

/-- `emit onData(CUR_ADDR, CUR_REG, p, |p|)`, and the callback runs inside the step (R146). -/
def callOnData (p : List Byte) (s : State) : State :=
  let a : Byte := s.curAddr.setWidth 8
  let r : Byte := s.curReg.setWidth 8
  runCallback a r p (s.emit (.onData a r p p.length))

/-- `dispatch(res)`, R146. -/
def dispatch (res : FrameResult) (s : State) : State :=
  match res with
  | .frame [] => if s.cfg.emptyPolicy = .never then s else callOnData [] s
  | .frame p => callOnData p s
  | .noFrame => if s.cfg.emptyPolicy = .always then callOnData [] s else s

/-! ## The key list and the decoder

The operations on key codes hold for every type `K` of codes (the parameter `KeyCode` of 00_scope.md R8). -/

/-- `KEYS` after `KeyDown(k)`, 43_scancode_decoder.md R165. -/
def keysAfterDown {K : Type} [DecidableEq K] (k : K) (ks : Vector K 6) : Vector K 6 :=
  if k ∈ ks.toList then ks else #v[k, ks[0], ks[1], ks[2], ks[3], ks[4]]

/-- `KEYS` after `KeyUp(k)`, R166: with `i` the least index that holds `k`, the slots after `i` move up one and
the last takes NOKEY. -/
def keysAfterUp {K : Type} [DecidableEq K] (noKey k : K) (ks : Vector K 6) : Vector K 6 :=
  if k ∈ ks.toList then
    let i := ks.toList.idxOf k
    Vector.ofFn fun j : Fin 6 =>
      if j.val < i then ks[j] else if h : j.val + 1 < 6 then ks[j.val + 1] else noKey
  else ks

/-- `KEYS` after a byte whose translation is `k`, key-down or key-up by its release flag; a NOKEY translation changes
nothing (R163, 30_encoding.md R80). -/
def keysAfterCode {K : Type} [DecidableEq K] (noKey k : K) (release : Bool) (ks : Vector K 6) : Vector K 6 :=
  if k = noKey then ks else if release then keysAfterUp noKey k ks else keysAfterDown k ks

/-- `ScMod(sc, release)`, R164. -/
def changeMod (sc : Scancode) (release : Bool) (s : State) : State :=
  { s with mods := modsAfter s.cfg sc release s.mods }

/-- The key-down or key-up of the key that a scancode translates to (R163). -/
def changeKey (sc : Scancode) (release : Bool) (s : State) : State :=
  { s with keys := keysAfterCode s.cfg.noKey (translate s.cfg sc) release s.keys }

/-- `ScByte(b)`, R163: the modifier test comes first. -/
def decodeScancode (b : Byte) (s : State) : State :=
  if isModifier s.cfg (scancodeOf b) then changeMod (scancodeOf b) (releaseBit b) s
  else changeKey (scancodeOf b) (releaseBit b) s

end Sys2Proof.Machine
end

