-- ==== Sys2Proof/Machine/Codec.lean ====
section
/-! DEFINITION. The Frame Codec's rows (40_frame_codec.md): functions of their operands, whose result is what the
step returns. Only DEC.FRAME touches the state, the Raw Capture Buffer it shifts in place. -/

namespace Sys2Proof.Machine

/-- CMD.RESET, R100. -/
def execCmdReset (s : State) : Result := function (State.returning (.word cmdResetWord)) s

/-- CMD.FLUSH, R101. -/
def execCmdFlush (a : Addr) (s : State) : Result :=
  function (State.returning (.word (cmdFlushWord s.cfg.flushNibble a))) s

/-- CMD.TALK, R102. -/
def execCmdTalk (a : Addr) (r : Reg) (s : State) : Result :=
  function (State.returning (.word (cmdTalkWord a r))) s

/-- CMD.LISTEN, R103. -/
def execCmdListen (a : Addr) (r : Reg) (s : State) : Result :=
  function (State.returning (.word (cmdListenWord a r))) s

/-- ENC.LISTEN, R104; not defined above 8 bytes (log 26). -/
def execEncListen (p : List Byte) (s : State) : Result :=
  if p.length ≤ listenMax then function (State.returning (.words (encodeListen p))) s
  else .refused .outsideDomain

/-- CAP.UNPACK, R105: the bytes `CAP[0..CAP_N-1]` and `CAP_N` as a value; the function writes no state (log 24). -/
def execCapUnpack (ws : List Word) (s : State) : Result :=
  function (fun t =>
    let bs := unpackBytes t.cfg.unpack ws
    t.returning (.capture bs (min capBytes bs.length))) s

/-- DEC.FRAME, R106, in place on `CAP` and `CAP_N`. -/
def execDecFrame (s : State) : Result :=
  function (fun t => t.decodeCapture.2.returning (.frame t.decodeCapture.1)) s

end Sys2Proof.Machine
end

