-- ==== Sys2Proof/Machine/HostOps.lean ====
section
/-! DEFINITION. The six host operations of the engine (41_bus_master_ops.md). Checks come in the order of R126,
before any write and any output. -/

namespace Sys2Proof.Machine

/-- What `init` sets, 41_bus_master_ops.md R120 and the column "after `init`" of 10_state.md R26 (log 31), after
its two backend actions. -/
def State.initialise (p : Pin) (cb : Callback) (s : State) : State :=
  { s with
    init := true, cb := cb, pin := p,
    curAddr := s.cfg.initAddr, curReg := 0, nextAddr := s.cfg.initAddr, nextReg := 0,
    capN := 0, srqPending := false, ring := [],
    keys := Vector.replicate 6 s.cfg.noKey, mods := ModFlags.none,
    timer := .armed s.cfg.tickPeriod, busIrq := true,
    be := { s.be with txq := [], flagSrq := false, flagEor := false } }

/-- INIT, R120. -/
def execInit (p : Pin) (cb : Callback) (s : State) : Result :=
  hostOp [checkNotInit s] (fun t => (beEnable (beClearCaptures t)).initialise p cb) s

/-- RESET, R121: no command word is pushed and the cursor is kept. -/
def execReset (s : State) : Result :=
  hostOp [checkInit s] (fun t =>
    let t := beDisable t
    let t := beForceLine .low t
    let t := beWait t.cfg.resetLowMin t
    let t := beForceLine .high t
    let t := beClearCaptures t
    let t := beEnable t
    t.clearCapture) s

/-- FLUSH, R122. -/
def execFlush (address : Nat) (s : State) : Result :=
  hostOp [checkInit s, checkAddress address] (fun t =>
    let t := beDisable t
    let t := beRestart t
    let t := beClearCaptures t
    let t := beEnable t
    let t := bePush (cmdFlushWord t.cfg.flushNibble (BitVec.ofNat 4 address)) t
    t.clearCapture) s

/-- TALK, R123: the next poll target is recorded, nothing is sent. -/
def execTalk (address register : Nat) (s : State) : Result :=
  hostOp [checkInit s, checkAddress address, checkRegister register] (fun t =>
    { t with nextAddr := BitVec.ofNat 4 address, nextReg := BitVec.ofNat 2 register }) s

/-- LISTEN, R124: the command word, then the words of the frame in order. -/
def execListen (address register : Nat) (bytes : List Byte) (s : State) : Result :=
  hostOp [checkInit s, checkAddress address, checkRegister register, checkPayload bytes] (fun t =>
    bePushAll (cmdListenWord (BitVec.ofNat 4 address) (BitVec.ofNat 2 register) :: encodeListen bytes) t) s

/-- SRQPEND, R125: read and clear in one step (20_memory.md R59). -/
def execSrqPend (s : State) : Result :=
  hostOp [checkInit s] (fun t => t.clearSrqPending.returning (.bool t.srqPending)) s

end Sys2Proof.Machine
end

