-- ==== Sys2Proof/Machine/Keyboard.lean ====
section
/-! DEFINITION. The ring buffer and the Scancode Decoder (43_scancode_decoder.md). -/

namespace Sys2Proof.Machine

/-- KBD.SINK, R160: a length below that of the payload takes the first bytes only, as R160's loop does; one above
it would read past the payload (log 26). -/
def execKbdSink (address register : Byte) (payload : List Byte) (length : Nat) (s : State) : Result :=
  if length ≤ payload.length then function (kbdSink address register (payload.take length)) s
  else .fault .payloadIndex

/-- RING.PUT, R161. -/
def execRingPut (b : Byte) (s : State) : Result := function (ringPut b) s

/-- CONSUME, R162: an empty ring is not an error. -/
def execConsume (s : State) : Result :=
  hostOp [checkInit s] (fun t =>
    match t.ring with
    | [] => t
    | b :: rest => decodeScancode b { t with ring := rest }) s

/-- SC.BYTE, R163. -/
def execScByte (b : Byte) (s : State) : Result := function (decodeScancode b) s

/-- SC.MOD, R164. -/
def execScMod (sc : Scancode) (release : Bool) (s : State) : Result := function (changeMod sc release) s

/-- KEY.DOWN, R165, of `XLAT[sc]`; a NOKEY translation changes nothing (30_encoding.md R80). -/
def execKeyDown (sc : Scancode) (s : State) : Result := function (changeKey sc false) s

/-- KEY.UP, R166, of `XLAT[sc]`; a NOKEY translation changes nothing (30_encoding.md R80). -/
def execKeyUp (sc : Scancode) (s : State) : Result := function (changeKey sc true) s

/-- KEYSTATE.READ, R168: a snapshot with no side effect. -/
def execKeyStateRead (s : State) : Result :=
  hostOp [checkInit s] (fun t => t.returning (.keyState t.keys t.mods)) s

end Sys2Proof.Machine
end

