-- ==== Sys2Proof/Machine/Polling.lean ====
section
/-! DEFINITION. The polling state machine (42_polling_events.md): the rotation, the three event handlers and the
callback dispatch. Handlers never raise. -/

namespace Sys2Proof.Machine

/-- ADVANCE, R140, as a value. -/
def execAdvance (a : Addr) (s : State) : Result := function (State.returning (.addr (advanceAddr a))) s

/-- TICK, R141: `next` is copied to `current`, a Talk to it is pushed, and `NEXT_REG` goes back to 0. -/
def execTick (s : State) : Result :=
  handler (fun t =>
    let t := { t with curAddr := t.nextAddr, curReg := t.nextReg }
    let t := bePush (cmdTalkWord t.curAddr t.curReg) t
    { t with nextReg := 0 }) s

/-- SRQ, R143: the drained words are dropped and the target advances. -/
def execSrq (ws : List Word) (s : State) : Result :=
  handler (fun t =>
    let t := (completePoll ws t).2
    let t := t.clearCapture
    let t := { t with nextAddr := advanceAddr t.nextAddr, nextReg := 0 }
    t.setSrqPending.consumeFlagSrq) s

/-- EOR, R145: the drained words are unpacked, decoded and dispatched. -/
def execEor (ws : List Word) (s : State) : Result :=
  handler (fun t =>
    let d := completePoll ws t
    let t := d.2.consumeFlagEor
    let t := t.loadCapture d.1
    let r := t.decodeCapture
    dispatch r.1 r.2) s

/-- ONDATA, the dispatch of a decode result, R146. -/
def execOnData (res : FrameResult) (s : State) : Result := function (dispatch res) s

end Sys2Proof.Machine
end

