-- ==== Sys2Proof/Syntax.lean ====
section
/-! DEFINITION. The operations of the block: one constructor per row of spec/opcode_table.json, in the order of
30_encoding.md R84. Operands are as the rule names them; the arguments of a host operation are unchecked, since
the operation itself checks them (41_bus_master_ops.md R126). -/

namespace Sys2Proof

inductive Instr where
  /-- CMD.RESET, R100. -/
  | cmdReset
  /-- CMD.FLUSH, R101. -/
  | cmdFlush (a : Addr)
  /-- CMD.TALK, R102. -/
  | cmdTalk (a : Addr) (r : Reg)
  /-- CMD.LISTEN, R103. -/
  | cmdListen (a : Addr) (r : Reg)
  /-- ENC.LISTEN, R104; `p` has 0 to 8 bytes. -/
  | encListen (p : List Byte)
  /-- CAP.UNPACK, R105. -/
  | capUnpack (ws : List Word)
  /-- DEC.FRAME, R106, on the Raw Capture Buffer of the state. -/
  | decFrame
  /-- INIT, `init(pin, callback)`, R120. -/
  | init (pin : Pin) (callback : Callback)
  /-- RESET, `reset()`, R121. -/
  | reset
  /-- FLUSH, `flush(address)`, R122. -/
  | flush (address : Nat)
  /-- TALK, `talk(address, register)`, R123. -/
  | talk (address register : Nat)
  /-- LISTEN, `listen(address, register, bytes)`, R124. -/
  | listen (address register : Nat) (bytes : List Byte)
  /-- SRQPEND, `serviceRequestPending()`, R125. -/
  | srqPend
  /-- ADVANCE, R140. -/
  | advance (a : Addr)
  /-- TICK, R141. -/
  | tick
  /-- SRQ, R143; `ws` are the words the drain returns (20_memory.md R47). -/
  | srq (ws : List Word)
  /-- EOR, R145; `ws` are the words the drain returns (20_memory.md R47). -/
  | eor (ws : List Word)
  /-- ONDATA, the dispatch of a decode result, R146. -/
  | onData (res : FrameResult)
  /-- KBD.SINK, R160: the callback tuple (30_encoding.md R78). -/
  | kbdSink (address register : Byte) (payload : List Byte) (length : Nat)
  /-- RING.PUT, R161. -/
  | ringPut (b : Byte)
  /-- CONSUME, R162. -/
  | consume
  /-- SC.BYTE, R163. -/
  | scByte (b : Byte)
  /-- SC.MOD, R164; `sc` is one of the five modifier scancodes. -/
  | scMod (sc : Scancode) (release : Bool)
  /-- KEY.DOWN, R165, of `k = XLAT[sc]` (opcode_table.json: "Operand is k = XLAT[sc]"; log 23). -/
  | keyDown (sc : Scancode)
  /-- KEY.UP, R166, of `k = XLAT[sc]` (log 23). -/
  | keyUp (sc : Scancode)
  /-- KEYSTATE.READ, `readKeyState()`, R168. -/
  | keyStateRead
  deriving DecidableEq, Repr

end Sys2Proof
end

