-- ==== Sys2Proof/Machine/Dispatch.lean ====
section
/-! DEFINITION. The dispatch: one arm per operation of the table. -/

namespace Sys2Proof.Machine

def exec (i : Instr) (s : State) : Host.Outcome State Fault Refusal :=
  match i with
  | .cmdReset => Sys2Proof.Machine.execCmdReset s
  | .cmdFlush a => Sys2Proof.Machine.execCmdFlush a s
  | .cmdTalk a r => Sys2Proof.Machine.execCmdTalk a r s
  | .cmdListen a r => Sys2Proof.Machine.execCmdListen a r s
  | .encListen p => Sys2Proof.Machine.execEncListen p s
  | .capUnpack ws => Sys2Proof.Machine.execCapUnpack ws s
  | .decFrame => Sys2Proof.Machine.execDecFrame s
  | .init p cb => Sys2Proof.Machine.execInit p cb s
  | .reset => Sys2Proof.Machine.execReset s
  | .flush a => Sys2Proof.Machine.execFlush a s
  | .talk a r => Sys2Proof.Machine.execTalk a r s
  | .listen a r bs => Sys2Proof.Machine.execListen a r bs s
  | .srqPend => Sys2Proof.Machine.execSrqPend s
  | .advance a => Sys2Proof.Machine.execAdvance a s
  | .tick => Sys2Proof.Machine.execTick s
  | .srq ws => Sys2Proof.Machine.execSrq ws s
  | .eor ws => Sys2Proof.Machine.execEor ws s
  | .onData res => Sys2Proof.Machine.execOnData res s
  | .kbdSink a r p n => Sys2Proof.Machine.execKbdSink a r p n s
  | .ringPut b => Sys2Proof.Machine.execRingPut b s
  | .consume => Sys2Proof.Machine.execConsume s
  | .scByte b => Sys2Proof.Machine.execScByte b s
  | .scMod sc rel => Sys2Proof.Machine.execScMod sc rel s
  | .keyDown sc => Sys2Proof.Machine.execKeyDown sc s
  | .keyUp sc => Sys2Proof.Machine.execKeyUp sc s
  | .keyStateRead => Sys2Proof.Machine.execKeyStateRead s

end Sys2Proof.Machine
end

