-- ==== Sys2Proof/WellFormed.lean ====
section
/-! DEFINITION. Which operations are well formed: the operands are in the domain the spec gives the operation.
The host operations take any arguments, because refusing bad ones is their own work (60_exceptions.md R181). -/

namespace Sys2Proof

open Sys2Proof.Machine

/-- The check, for a machine with parameters `c`.

CMD.FLUSH: the byte is not 0, which 30_encoding.md R79 gives to Reset (possible only for address 0 with a zero
nibble; log 29). ENC.LISTEN: at most 8 bytes (40_frame_codec.md R104). ONDATA: a payload of at most 8 bytes
(R106). KBD.SINK: a tuple of format CBK (R78). SC.MOD: one of the five scancodes (R164). KEY.DOWN, KEY.UP: not a
modifier scancode, and a translation other than NOKEY (opcode_table.json). -/
def Instr.wellFormed (c : Params) : Instr → Bool
  | .cmdReset => true
  | .cmdFlush a => flushByte a c.flushNibble != 0#8
  | .cmdTalk _ _ => true
  | .cmdListen _ _ => true
  | .encListen p => decide (p.length ≤ listenMax)
  | .capUnpack _ => true
  | .decFrame => true
  | .init _ _ => true
  | .reset => true
  | .flush _ => true
  | .talk _ _ => true
  | .listen _ _ _ => true
  | .srqPend => true
  | .advance _ => true
  | .tick => true
  | .srq _ => true
  | .eor _ => true
  | .onData .noFrame => true
  | .onData (.frame p) => decide (p.length ≤ 8)
  | .kbdSink a r p n =>
    decide (2 ≤ a.toNat) && decide (a.toNat ≤ 15) && decide (r.toNat ≤ 3) && decide (p.length ≤ 8)
      && decide (n = p.length)
  | .ringPut _ => true
  | .consume => true
  | .scByte _ => true
  | .scMod sc _ => isModifier c sc
  | .keyDown sc => !isModifier c sc && translate c sc != c.noKey
  | .keyUp sc => !isModifier c sc && translate c sc != c.noKey
  | .keyStateRead => true

end Sys2Proof
end

