-- ==== Sys2Proof/Decode.lean ====
section
/-! DEFINITION. The decoder, total on every input and rejecting by name, and after it the encoder. The bit
formats are those of 30_encoding.md: CW (R70, R71, R79), LF (R72 to R74), SB (R77). Host operations, events and
bare functions have no bit encoding (R82); their inputs are lines of the script notation (R83; log 11). -/

namespace Sys2Proof

open Sys2Proof.Machine

/-! ## Command words -/

/-- A command byte, in the priority R79 gives a checker: bits [3:2] for Talk and Listen first, then zero for
Reset, then the low nibble for Flush, else undefined. -/
def decodeCommandByte (c : Params) (cb : Byte) : Except DecodeError Instr :=
  let a : Addr := cb.extractLsb' 4 4
  let r : Reg := cb.extractLsb' 0 2
  if cb.extractLsb' 2 2 = kindTalk then .ok (.cmdTalk a r)
  else if cb.extractLsb' 2 2 = kindListen then .ok (.cmdListen a r)
  else if cb = 0#8 then .ok .cmdReset
  else if cb.extractLsb' 0 4 = c.flushNibble then .ok (.cmdFlush a)
  else .error .undefinedCommandByte

/-- A command word: its top byte, whatever the low 24 bits, which a receiver must treat as any value
(93_implementation_defined.md U10). -/
def decodeCommandWord (c : Params) (w : Word) : Except DecodeError Instr :=
  decodeCommandByte c (w.extractLsb' 24 8)

/-! ## Listen frames -/

/-- A listen frame: the header gives the length (R73, R81), and word count and padding must be those of R72 and
R74 for that length. -/
def decodeListenFrame (ws : List Word) : Except DecodeError Instr :=
  match ws.flatMap bytesOf with
  | [] => .error .listenHeader
  | h :: data =>
    let len := (h + 1#8).toNat / 8
    if listenHeader len ≠ h ∨ len > listenMax then .error .listenHeader
    else if encodeListen (data.take len) = ws then .ok (.encListen (data.take len))
    else .error .listenPadding

/-! ## Scancode bytes -/

/-- A scancode byte, classified in the order of R77 and 43_scancode_decoder.md R163. A byte whose translation is
NOKEY is in the encoding of no row but SC.BYTE. -/
def decodeScancodeByte (c : Params) (b : Byte) : Except DecodeError Instr :=
  let sc := scancodeOf b
  if isModifier c sc then .ok (.scMod sc (releaseBit b))
  else if translate c sc = c.noKey then .ok (.scByte b)
  else if releaseBit b then .ok (.keyUp sc)
  else .ok (.keyDown sc)

/-! ## Lines of the script notation -/

/-- A number as an operand of `w` bits, if it fits. -/
def fitBits (w n : Nat) : Except DecodeError (BitVec w) :=
  if n < 2 ^ w then .ok (BitVec.ofNat w n) else .error .argumentWidth

/-- Numbers as operands of `w` bits, if all fit. -/
def fitAll (w : Nat) : List Nat → Except DecodeError (List (BitVec w))
  | [] => .ok []
  | n :: ns =>
    match fitBits w n, fitAll w ns with
    | .ok v, .ok vs => .ok (v :: vs)
    | .error e, _ => .error e
    | _, .error e => .error e

/-- The operation of a line, before its domain is checked. `srq` alone means `srq []` (R83). -/
def decodeLine : OpName → List Arg → Except DecodeError Instr
  | .init, [.pin p, .callback cb] => .ok (.init p cb)
  | .reset, [] => .ok .reset
  | .flush, [.num a] => .ok (.flush a)
  | .talk, [.num a, .num r] => .ok (.talk a r)
  | .listen, [.num a, .num r, .nums bs] => (fitAll 8 bs).map (.listen a r ·)
  | .srqp, [] => .ok .srqPend
  | .tick, [] => .ok .tick
  | .srq, [] => .ok (.srq [])
  | .srq, [.nums ws] => (fitAll 32 ws).map .srq
  | .eor, [.nums ws] => (fitAll 32 ws).map .eor
  | .consume, [] => .ok .consume
  | .sc, [.num b] => (fitBits 8 b).map .scByte
  | .read, [] => .ok .keyStateRead
  | .unpack, [.nums ws] => (fitAll 32 ws).map .capUnpack
  | .decodeFrame, [] => .ok .decFrame
  | .advance, [.num a] => (fitBits 4 a).map .advance
  | .dispatch, [.frame r] => .ok (.onData r)
  | .kbdSink, [.num a, .num r, .nums bs, .num n] =>
    match fitBits 8 a, fitBits 8 r, fitAll 8 bs with
    | .ok a', .ok r', .ok bs' => .ok (.kbdSink a' r' bs' n)
    | .error e, _, _ => .error e
    | _, .error e, _ => .error e
    | _, _, .error e => .error e
  | .ringPut, [.num b] => (fitBits 8 b).map .ringPut
  | _, _ => .error .arguments

/-! ## Any input -/

/-- An input as its format reads it. -/
def decodeFormat (c : Params) : Packet → Except DecodeError Instr
  | .cw w => decodeCommandWord c w
  | .lf ws => decodeListenFrame ws
  | .sb b => decodeScancodeByte c b
  | .call name args => decodeLine name args
  | .raw _ _ => .error .noSuchFormat

/-- The decoder: the operation of an input, if its operands are in the operation's domain. -/
def decode (c : Params) (p : Packet) : Except DecodeError Instr :=
  match decodeFormat c p with
  | .ok i => if i.wellFormed c then .ok i else .error .illFormed
  | .error e => .error e

/-- The input that `nbits` bits `w` are: 8 bits a scancode byte, 32 a command word, 64 and 96 a listen frame of
two and three words (a frame of one word is as long as a command word; log 11). Bit 0 of `w` is bit 0 of the
first word. -/
def packetOfBits (nbits w : Nat) : Packet :=
  if nbits = 8 then .sb (BitVec.ofNat 8 w)
  else if nbits = 32 then .cw (BitVec.ofNat 32 w)
  else if nbits = 64 then .lf [BitVec.ofNat 32 w, BitVec.ofNat 32 (w / 2 ^ 32)]
  else if nbits = 96 then
    .lf [BitVec.ofNat 32 w, BitVec.ofNat 32 (w / 2 ^ 32), BitVec.ofNat 32 (w / 2 ^ 64)]
  else .raw nbits w

/-- The operation the decoder reads from a table row's bits, with the default parameters. -/
def decodeTableWord (nbits w : Nat) : Option Instr :=
  match decode Config.defaults (packetOfBits nbits w) with
  | .ok i => some i
  | .error _ => none

/-! ## The encoder -/

/-- The input that stands for an operation, by the same tables: the command word of R71, the listen frame of R72,
the scancode byte of R77, or the line of R83. -/
def encode (c : Params) : Instr → Packet
  | .cmdReset => .cw cmdResetWord
  | .cmdFlush a => .cw (cmdFlushWord c.flushNibble a)
  | .cmdTalk a r => .cw (cmdTalkWord a r)
  | .cmdListen a r => .cw (cmdListenWord a r)
  | .encListen p => .lf (encodeListen p)
  | .capUnpack ws => .call .unpack [.nums (ws.map BitVec.toNat)]
  | .decFrame => .call .decodeFrame []
  | .init p cb => .call .init [.pin p, .callback cb]
  | .reset => .call .reset []
  | .flush a => .call .flush [.num a]
  | .talk a r => .call .talk [.num a, .num r]
  | .listen a r bs => .call .listen [.num a, .num r, .nums (bs.map BitVec.toNat)]
  | .srqPend => .call .srqp []
  | .advance a => .call .advance [.num a.toNat]
  | .tick => .call .tick []
  | .srq ws => .call .srq [.nums (ws.map BitVec.toNat)]
  | .eor ws => .call .eor [.nums (ws.map BitVec.toNat)]
  | .onData r => .call .dispatch [.frame r]
  | .kbdSink a r bs n => .call .kbdSink [.num a.toNat, .num r.toNat, .nums (bs.map BitVec.toNat), .num n]
  | .ringPut b => .call .ringPut [.num b.toNat]
  | .consume => .call .consume []
  | .scByte b => .call .sc [.num b.toNat]
  | .scMod sc rel => .sb (scancodeByte rel sc)
  | .keyDown sc => .sb (scancodeByte false sc)
  | .keyUp sc => .sb (scancodeByte true sc)
  | .keyStateRead => .call .read []

end Sys2Proof
end

