-- ==== Sys2Proof/Machine/Fetch.lean ====
section
/-! DEFINITION. Taking the next input. The block has no program counter and no fetch (10_state.md R14): what it
does next is decided by which input arrives (00_scope.md R6), and the inputs that have arrived and are not taken
stand in the state, oldest first (log 10). -/

namespace Sys2Proof.Machine

/-- The next input, and the state with that input taken; none when no input waits. -/
def nextInput (s : State) : Option (Packet × State) :=
  match s.inputs with
  | [] => none
  | p :: rest => some (p, { s with inputs := rest })

/-- The state with one more input, before all others. -/
def State.withInput (p : Packet) (s : State) : State := { s with inputs := p :: s.inputs }

end Sys2Proof.Machine
end

