-- ==== Sys2Proof/Machine/Step.lean ====
section
/-! DEFINITION. One step: the next input is taken, decoded with the machine's own parameters, and run. -/

namespace Sys2Proof.Machine

/-- One step (00_scope.md R6). With no input the block waits (70_reset_and_hazards.md R210, R211): the state
stays as it is. -/
def step (s : State) : Host.Outcome State Fault Refusal :=
  match nextInput s with
  | none => .next s
  | some (p, t) =>
    match decode t.cfg p with
    | .ok i => exec i t
    | .error e => .refused (.undecodable e)

/-- The state with the operation that `nbits` bits `w` encode placed where the step takes its next input. -/
def State.withFetchWord (s : State) (nbits w : Nat) : State := s.withInput (packetOfBits nbits w)

end Sys2Proof.Machine
end

