-- ==== Sys2Proof/Safety.lean ====
section
/-! DEFINITION. The terms claims use: what a good state is, runs of several operations, the outputs of a step by
kind, and the capture that a payload makes on the wire. -/

namespace Sys2Proof.Machine

/-! ## Good states -/

/-- 10_state.md R24: the cursor's addresses are valid. -/
def State.CursorOk (s : State) : Prop := 2 ≤ s.curAddr.toNat ∧ 2 ≤ s.nextAddr.toNat

/-- 10_state.md R25: no key code but NOKEY occurs twice, and every NOKEY slot is after every other slot. -/
def KeysOk {K : Type} (noKey : K) (ks : Vector K 6) : Prop :=
  (∀ i j : Fin 6, ks[i] = ks[j] → ks[i] ≠ noKey → i = j) ∧
    ∀ i j : Fin 6, i < j → ks[i] = noKey → ks[j] = noKey

/-- 10_state.md R19: the four flags with no scancode. -/
def untriggered (m : ModFlags) : List Bool := [m.rCtrl, m.rAlt, m.rGui, m.menu]

/-- What every step keeps: the parameters meet the constraints of 00_scope.md R8, and after `init` the cursor is
valid (R24), the key list is compact and without repeats (R25), the ring holds at most `RING_CAP` bytes (R20),
the four flags without a trigger read 0 (R19), and the timer and the bus-signal interrupt are on
(60_exceptions.md R189: armed and installed by `init`, never disarmed or removed). -/
structure State.Inv (s : State) : Prop where
  params : s.cfg.wf = true
  cursor : s.init = true → s.CursorOk
  keys : s.init = true → KeysOk s.cfg.noKey s.keys
  ring : s.init = true → s.ring.length ≤ s.cfg.ringCap
  mods : s.init = true → ∀ f ∈ untriggered s.mods, f = false
  sources : s.init = true → s.timer = .armed s.cfg.tickPeriod ∧ s.busIrq = true

/-- A safe step: the machine goes on. -/
def State.Safe (s : State) : Prop := ∃ t, step s = .next t

/-! ## Runs -/

/-- The operations of a list, one step each, in order, stopping at the first that has no next state. -/
def runOps : List Instr → State → Result
  | [], s => .next s
  | i :: is, s =>
    match exec i s with
    | .next t => runOps is t
    | .fault f => .fault f
    | .refused r => .refused r

/-! ## Outputs by kind -/

/-- The words pushed among outputs, in order. -/
def pushesOf (os : List Output) : List Word :=
  os.filterMap fun o => match o with
    | .push w => some w
    | _ => none

/-- The callbacks among outputs, in order. -/
def callbacksOf (os : List Output) : List Output :=
  os.filter fun o => match o with
    | .onData _ _ _ _ => true
    | _ => false

/-! ## The dispatch and the ring, in the terms of their rules -/

/-- The payload that the dispatch of 42_polling_events.md R146 passes to `onData`, if it makes a callback. -/
def delivered (pol : EmptyPolicy) : FrameResult → Option (List Byte)
  | .noFrame => if pol = .always then some [] else none
  | .frame p => if p = [] ∧ pol = .never then none else some p

/-- The callback of R146 for a payload, if there is one: `CUR_ADDR` and `CUR_REG` as they are. -/
def callbackOutput (s : State) (p : Option (List Byte)) : List Output :=
  p.toList.map fun bs => .onData (BitVec.ofNat 8 s.curAddr.toNat) (BitVec.ofNat 8 s.curReg.toNat) bs bs.length

/-- The newest `cap` bytes of a ring after `bs` have arrived, oldest lost first (43_scancode_decoder.md R161). -/
def newest (cap : Nat) (ring bs : List Byte) : List Byte :=
  (ring ++ bs).drop ((ring ++ bs).length - cap)

/-- Whether a callback made now fills the ring: the registered callback is the keyboard sink and the poll is of
the keyboard (43_scancode_decoder.md R160). -/
def State.SinkListens (s : State) : Prop :=
  s.cb = .kbdSink ∧ s.curAddr.toNat = s.cfg.kbdAddr.toNat ∧ s.curReg.toNat = s.cfg.kbdReg.toNat

/-! ## The capture of a payload, 40_frame_codec.md R108 -/

/-- The bits of a payload after one bit `carry`, then the tail, regrouped in bytes. -/
def carriedBytes (carry : BitVec 1) : List Byte → BitVec 7 → List Byte
  | [], t => [(carry.setWidth 8 <<< 7) ||| t.setWidth 8]
  | b :: bs, t => ((carry.setWidth 8 <<< 7) ||| (b >>> 1)) :: carriedBytes (b.setWidth 1) bs t

/-- `Frame9(k, P, t)`, R108: `k` zero bytes, the start bit, the payload, the tail. -/
def frame9 (k : Nat) (p : List Byte) (t : BitVec 7) : List Byte :=
  List.replicate k 0#8 ++ carriedBytes 1#1 p t

end Sys2Proof.Machine
end

