-- ==== Sys2Proof/Certificates/Slice0/Obligations.lean ====
section
/-! DEFINITION. The statements for the provers. An equation `exec i s = .next { s with … }` names every part of
the state that changes, so it is also the operation's frame: all that it does not name stays. -/

open Sys2Proof Sys2Proof.Machine

/-! ## The Frame Codec -/

/-- 40_frame_codec.md R100 to R103, 30_encoding.md R70, R71: the four command words by their bit fields. -/
def Obligations.CommandWordFields : Prop :=
  ∀ (s : State) (a : Addr) (r : Reg),
    exec .cmdReset s = .next { s with out := [], ret := .word 0#32, status := none } ∧
    (∃ w : Word, exec (.cmdFlush a) s = .next { s with out := [], ret := .word w, status := none } ∧
      w.extractLsb' 28 4 = a ∧ w.extractLsb' 24 4 = s.cfg.flushNibble ∧ w.extractLsb' 0 24 = 0#24) ∧
    (∃ w : Word, exec (.cmdTalk a r) s = .next { s with out := [], ret := .word w, status := none } ∧
      w.extractLsb' 28 4 = a ∧ w.extractLsb' 26 2 = 0b11#2 ∧ w.extractLsb' 24 2 = r ∧
      w.extractLsb' 0 24 = 0#24) ∧
    (∃ w : Word, exec (.cmdListen a r) s = .next { s with out := [], ret := .word w, status := none } ∧
      w.extractLsb' 28 4 = a ∧ w.extractLsb' 26 2 = 0b10#2 ∧ w.extractLsb' 24 2 = r ∧
      w.extractLsb' 0 24 = 0#24)

/-- 40_frame_codec.md R104, 30_encoding.md R72 to R74: the bytes of the listen frame, big-endian in its words. -/
def Obligations.ListenFrameBytes : Prop :=
  ∀ (s : State) (p : List Byte), p.length ≤ 8 → ∃ ws : List Word,
    exec (.encListen p) s = .next { s with out := [], ret := .words ws, status := none } ∧
    ws.length = (p.length + 4) / 4 ∧
    ws.flatMap bytesOf =
      BitVec.ofNat 8 ((8 * p.length + 255) % 256) :: (p ++ List.replicate (4 * ws.length - p.length - 1) 0#8)

/-- 40_frame_codec.md R104 does not define the function above 8 bytes; that the step is refused there is the model's
choice (log 26). -/
def Obligations.LongListenFrameRefused : Prop :=
  ∀ (s : State) (p : List Byte), 8 < p.length → exec (.encListen p) s = .refused .outsideDomain

/-- 40_frame_codec.md R105: the unpacked bytes; with the default UNPACK, byte `i` is byte `i mod 4`, most
significant first, of word `i div 4`. That the function alone writes no state is the model's reading (log 24). -/
def Obligations.CaptureUnpackBytes : Prop :=
  ∀ (s : State) (ws : List Word), ∃ bs : List Byte,
    exec (.capUnpack ws) s = .next { s with out := [], ret := .capture bs bs.length, status := none } ∧
    bs.length ≤ 9 ∧
    (s.cfg.unpack = .keepAll → bs.length = min 9 (4 * ws.length) ∧
      ∀ i, i < bs.length → ∃ w, ws[i / 4]? = some w ∧ bs[i]? = some (w.extractLsb' (24 - 8 * (i % 4)) 8))

/-- 00_scope.md R8, 40_frame_codec.md R105: `UNPACK` is a parameter. Whatever the function and the drains of a run,
some choice of the parameter makes CAP.UNPACK answer as the function does on each of those drains (the form of the
parameter is the model's choice, log 15). -/
def Obligations.UnpackIsParameter : Prop :=
  ∀ (U : List Word → Vector Byte 9 × Fin 10) (drains : List (List Word)), ∃ pol : UnpackPolicy,
    ∀ ws ∈ drains, ∀ s : State, s.cfg.unpack = pol →
      exec (.capUnpack ws) s = .next { s with
        out := [], ret := .capture ((U ws).1.toList.take (U ws).2.val) (U ws).2.val, status := none }

/-- 40_frame_codec.md R106: the decode, byte by byte, on the buffer of the state. -/
def Obligations.FrameDecodeInPlace : Prop :=
  ∀ s : State, ∃ (res : FrameResult) (cap' : Vector Byte 9),
    exec .decFrame s = .next { s with cap := cap', out := [], ret := .frame res, status := none } ∧
    ((∀ i : Fin 9, i.val < s.capN.val → s.cap[i] = 0#8) → res = .noFrame ∧ cap' = s.cap) ∧
    ∀ start : Fin 9, start.val < s.capN.val → s.cap[start] ≠ 0#8 → (∀ i : Fin 9, i < start → s.cap[i] = 0#8) →
      (∀ i : Fin 9, cap'[i] =
        if start ≤ i ∧ i.val < s.capN.val then
          (s.cap[i] <<< 1) ||| (if i.val + 1 < s.capN.val then (s.cap.toList.getD (i.val + 1) 0#8) >>> 7 else 0#8)
        else s.cap[i]) ∧
      ∃ p, res = .frame p ∧ p.length = s.capN.val - start.val - 1 ∧
        ∀ j, j < p.length → p[j]? = cap'[start.val + j]?

/-- 40_frame_codec.md R108: `Frame9(k, P, t)` byte by byte, and the decode gives `P` back. -/
def Obligations.FrameDecodeInvertsFrame9 : Prop :=
  ∀ (k : Nat) (p : List Byte) (tl : BitVec 7), k + p.length + 1 ≤ 9 →
    (frame9 k p tl).length = k + p.length + 1 ∧
    (∀ i, i < k → (frame9 k p tl)[i]? = some 0#8) ∧
    (p = [] → (frame9 k p tl)[k]? = some (0x80#8 ||| tl.setWidth 8)) ∧
    (∀ b : Byte, p.head? = some b → (frame9 k p tl)[k]? = some (0x80#8 ||| (b >>> 1))) ∧
    (∀ (j : Nat) (x y : Byte), p[j]? = some x → p[j + 1]? = some y →
      (frame9 k p tl)[k + j + 1]? = some (((x &&& 1#8) <<< 7) ||| (y >>> 1))) ∧
    (∀ x : Byte, p.getLast? = some x →
      (frame9 k p tl)[k + p.length]? = some (((x &&& 1#8) <<< 7) ||| tl.setWidth 8)) ∧
    ∀ s : State, s.captured = frame9 k p tl → ∃ cap' : Vector Byte 9,
      exec .decFrame s = .next { s with cap := cap', out := [], ret := .frame (.frame p), status := none }

/-! ## Host operations -/

/-- 41_bus_master_ops.md R126, 60_exceptions.md R181: the order of the checks, and a raise that writes and emits
nothing. That a raise answers a next state with the status as a value, where R181 also lets a model refuse the input,
is the model's choice (log 8). -/
def Obligations.HostChecksInOrder : Prop :=
  ∀ (s : State) (a r : Nat) (bs : List Byte) (p : Pin) (cb : Callback),
    let raised (e : ErrorStatus) : Result := .next { s with out := [], ret := .none, status := some e }
    (s.init = true → exec (.init p cb) s = raised .reinit) ∧
    (s.init = false →
      exec .reset s = raised .uninit ∧ exec (.flush a) s = raised .uninit ∧ exec (.talk a r) s = raised .uninit ∧
      exec (.listen a r bs) s = raised .uninit ∧ exec .srqPend s = raised .uninit ∧
      exec .consume s = raised .uninit ∧ exec .keyStateRead s = raised .uninit) ∧
    (s.init = true → ¬(2 ≤ a ∧ a ≤ 15) →
      exec (.flush a) s = raised .badAddress ∧ exec (.talk a r) s = raised .badAddress ∧
      exec (.listen a r bs) s = raised .badAddress) ∧
    (s.init = true → 2 ≤ a → a ≤ 15 → 3 < r →
      exec (.talk a r) s = raised .badRegister ∧ exec (.listen a r bs) s = raised .badRegister) ∧
    (s.init = true → 2 ≤ a → a ≤ 15 → r ≤ 3 → 8 < bs.length → exec (.listen a r bs) s = raised .callerMisuse)

/-- 41_bus_master_ops.md R120 with the column "after `init`" of 10_state.md R26 (log 31). -/
def Obligations.InitInitialises : Prop :=
  ∀ (s : State) (p : Pin) (cb : Callback), s.init = false →
    exec (.init p cb) s = .next { s with
      init := true, cb := cb, pin := p
      curAddr := s.cfg.initAddr, curReg := 0, nextAddr := s.cfg.initAddr, nextReg := 0
      capN := 0, srqPending := false, ring := []
      keys := #v[s.cfg.noKey, s.cfg.noKey, s.cfg.noKey, s.cfg.noKey, s.cfg.noKey, s.cfg.noKey]
      mods := { lShift := false, rShift := false, lCtrl := false, rCtrl := false, lAlt := false, rAlt := false,
                lGui := false, rGui := false, menu := false }
      timer := .armed s.cfg.tickPeriod, busIrq := true
      be := { s.be with txq := [], rxq := [], resid := [], enabled := true, flagSrq := false, flagEor := false }
      out := [.clearCaptures, .enable], ret := .none, status := none }

/-- 41_bus_master_ops.md R121: the line is held low and high again, nothing is pushed, the cursor is kept. -/
def Obligations.ResetHoldsLine : Prop :=
  ∀ s : State, s.init = true →
    exec .reset s = .next { s with
      capN := 0
      be := { s.be with rxq := [], resid := [], enabled := true, line := .high }
      out := [.disable, .forceLine .low, .wait s.cfg.resetLowMin, .forceLine .high, .clearCaptures, .enable]
      ret := .none, status := none }

/-- 41_bus_master_ops.md R122: the backend is cleaned up and the Flush word of the address is pushed. -/
def Obligations.FlushPushesFlushWord : Prop :=
  ∀ (s : State) (a : Nat), s.init = true → 2 ≤ a → a ≤ 15 → ∃ w : Word,
    exec (.flush a) s = .next { s with
      capN := 0
      be := { s.be with txq := s.be.txq ++ [w], rxq := [], resid := [], pc := 0, enabled := true }
      out := [.disable, .restart, .clearCaptures, .enable, .push w]
      ret := .none, status := none } ∧
    (w.extractLsb' 28 4).toNat = a ∧ w.extractLsb' 24 4 = s.cfg.flushNibble ∧ w.extractLsb' 0 24 = 0#24

/-- 41_bus_master_ops.md R123: only the next poll target is written, and nothing is emitted. -/
def Obligations.TalkRecordsTarget : Prop :=
  ∀ (s : State) (a r : Nat), s.init = true → 2 ≤ a → a ≤ 15 → r ≤ 3 → ∃ (na : Addr) (nr : Reg),
    exec (.talk a r) s = .next { s with
      nextAddr := na, nextReg := nr, out := [], ret := .none, status := none } ∧
    na.toNat = a ∧ nr.toNat = r

/-- 41_bus_master_ops.md R124: the Listen word, then the words of the frame, in order; nothing else changes. -/
def Obligations.ListenPushesFrame : Prop :=
  ∀ (s : State) (a r : Nat) (bs : List Byte), s.init = true → 2 ≤ a → a ≤ 15 → r ≤ 3 → bs.length ≤ 8 →
    ∃ (w : Word) (ws : List Word),
      exec (.listen a r bs) s = .next { s with
        be := { s.be with txq := s.be.txq ++ w :: ws }
        out := .push w :: ws.map .push, ret := .none, status := none } ∧
      (w.extractLsb' 28 4).toNat = a ∧ w.extractLsb' 26 2 = 0b10#2 ∧ (w.extractLsb' 24 2).toNat = r ∧
      w.extractLsb' 0 24 = 0#24 ∧
      ws.length = (bs.length + 4) / 4 ∧
      ws.flatMap bytesOf =
        BitVec.ofNat 8 ((8 * bs.length + 255) % 256) :: (bs ++ List.replicate (4 * ws.length - bs.length - 1) 0#8)

/-- 41_bus_master_ops.md R125: read and clear. -/
def Obligations.SrqPendReadsAndClears : Prop :=
  ∀ s : State, s.init = true →
    exec .srqPend s = .next { s with
      srqPending := false, out := [], ret := .bool s.srqPending, status := none }

/-- 70_reset_and_hazards.md R231, 41_bus_master_ops.md R125: any number of service requests since the last query
is reported once. -/
def Obligations.RequestsReportedOnce : Prop :=
  ∀ (s : State) (wss : List (List Word)), s.init = true → wss ≠ [] → ∃ t u : State,
    runOps (wss.map .srq ++ [.srqPend]) s = .next t ∧ t.ret = .bool true ∧
    exec .srqPend t = .next u ∧ u.ret = .bool false

/-! ## Polling -/

/-- 42_polling_events.md R140: the rotation, its range and its period. -/
def Obligations.AdvanceRotates : Prop :=
  (∀ (s : State) (a : Addr), ∃ b : Addr,
    exec (.advance a) s = .next { s with out := [], ret := .addr b, status := none } ∧
    2 ≤ b.toNat ∧ b.toNat ≤ 15 ∧
    (15 ≤ a.toNat ∨ a.toNat ≤ 1 → b.toNat = 2) ∧ (2 ≤ a.toNat → a.toNat ≤ 14 → b.toNat = a.toNat + 1)) ∧
  (∀ a : Addr, 2 ≤ a.toNat → advanceAddr^[14] a = a) ∧
  ∀ (a : Addr) (n : Fin 14), 2 ≤ a.toNat → 0 < n.val → advanceAddr^[n.val] a ≠ a

/-- 42_polling_events.md R141: the poll moves to `NEXT_*`, its Talk word is pushed, `NEXT_REG` goes back to 0. -/
def Obligations.TickPollsNext : Prop :=
  ∀ s : State, s.init = true → ∃ w : Word,
    exec .tick s = .next { s with
      curAddr := s.nextAddr, curReg := s.nextReg, nextReg := 0
      be := { s.be with txq := s.be.txq ++ [w] }
      out := [.push w], ret := .none, status := none } ∧
    w.extractLsb' 28 4 = s.nextAddr ∧ w.extractLsb' 26 2 = 0b11#2 ∧ w.extractLsb' 24 2 = s.nextReg ∧
    w.extractLsb' 0 24 = 0#24

/-- 42_polling_events.md R143: the drained words are dropped and the target advances. -/
def Obligations.SrqAdvancesTarget : Prop :=
  ∀ (s : State) (ws : List Word), s.init = true → ∃ na : Addr,
    exec (.srq ws) s = .next { s with
      nextAddr := na, nextReg := 0, capN := 0, srqPending := true
      be := { s.be with rxq := [], resid := [], pc := 0, flagSrq := false }
      out := .forceFlush :: ws.map .pop ++ [.restart], ret := .none, status := none } ∧
    na.toNat = if s.nextAddr.toNat ≥ 15 ∨ s.nextAddr.toNat ≤ 1 then 2 else s.nextAddr.toNat + 1

/-- 42_polling_events.md R145, R146: the drained words are unpacked, decoded in place and dispatched, with the
port actions in order; under the default policy and every other. -/
def Obligations.EorDeliversPayload : Prop :=
  ∀ (s : State) (ws : List Word), s.init = true →
    let bs := unpackBytes s.cfg.unpack ws
    let payload := delivered s.cfg.emptyPolicy (decodeBytes bs).1
    ∃ (cap' : Vector Byte 9) (n : Fin 10) (ring' : List Byte),
      exec (.eor ws) s = .next { s with
        cap := cap', capN := n, ring := ring', freeCount := s.freeCount + 1
        be := { s.be with rxq := [], resid := [], pc := 0, flagEor := false }
        out := .forceFlush :: ws.map .pop ++ .restart :: callbackOutput s payload
        ret := .none, status := none } ∧
      n.val = bs.length ∧ cap'.toList.take n.val = (decodeBytes bs).2 ∧
      (¬s.SinkListens → ring' = s.ring) ∧
      (s.SinkListens → 1 ≤ s.cfg.ringCap → s.ring.length ≤ s.cfg.ringCap →
        ring' = newest s.cfg.ringCap s.ring (payload.getD []))

/-- 42_polling_events.md R146: the dispatch of any decode result. -/
def Obligations.OnDataDispatches : Prop :=
  ∀ (s : State) (res : FrameResult), ∃ ring' : List Byte,
    exec (.onData res) s = .next { s with
      ring := ring', out := callbackOutput s (delivered s.cfg.emptyPolicy res), ret := .none, status := none } ∧
    (¬s.SinkListens → ring' = s.ring) ∧
    (s.SinkListens → 1 ≤ s.cfg.ringCap → s.ring.length ≤ s.cfg.ringCap →
      ring' = newest s.cfg.ringCap s.ring ((delivered s.cfg.emptyPolicy res).getD []))

/-- 60_exceptions.md R184: before `init` the events have no transition, which in the model is a refusal (log 7). -/
def Obligations.EventsNeedInit : Prop :=
  ∀ (s : State) (ws : List Word), s.init = false →
    exec .tick s = .refused .eventNotEnabled ∧ exec (.srq ws) s = .refused .eventNotEnabled ∧
    exec (.eor ws) s = .refused .eventNotEnabled

/-- 42_polling_events.md R144: `N` service requests take the target from 2 to `2 + N mod 14`, whatever other
operation but `talk` and `init` stands between them (`reset` among those that may). -/
def Obligations.RotationSequence : Prop :=
  (∀ (s : State) (is : List Instr) (t : State), s.init = true → s.nextAddr = 2#4 →
    (∀ i ∈ is, (∀ a r, i ≠ .talk a r) ∧ ∀ p cb, i ≠ .init p cb) → runOps is s = .next t →
    t.nextAddr.toNat = 2 + (is.countP fun i => match i with | .srq _ => true | _ => false) % 14) ∧
  ∀ (s : State) (wss : List (List Word)), s.init = true → ∃ t, runOps (wss.map .srq) s = .next t

/-- 42_polling_events.md R142: two ticks with no `Srq` and no `talk` between them poll the same address. -/
def Obligations.RepollWithoutRequest : Prop :=
  ∀ (s t u v : State) (is : List Instr), s.init = true → exec .tick s = .next t →
    (∀ i ∈ is, (∀ a r, i ≠ .talk a r) ∧ ∀ ws, i ≠ .srq ws) → runOps is t = .next u → exec .tick u = .next v →
    ∃ w w' : Word, t.out = [.push w] ∧ v.out = [.push w'] ∧
      w.extractLsb' 26 2 = 0b11#2 ∧ w'.extractLsb' 26 2 = 0b11#2 ∧ w.extractLsb' 28 4 = w'.extractLsb' 28 4

/-- 20_memory.md R60: of two `talk` calls before a tick the second is polled, and for one tick only. -/
def Obligations.LastTalkIsPolled : Prop :=
  ∀ (s : State) (a r a' r' : Nat), s.init = true → 2 ≤ a → a ≤ 15 → r ≤ 3 → 2 ≤ a' → a' ≤ 15 → r' ≤ 3 →
    ∃ (t u : State) (w w' : Word), runOps [.talk a r, .talk a' r', .tick] s = .next t ∧ t.out = [.push w] ∧
      w.toNat = (a' * 16 + 12 + r') * 2 ^ 24 ∧ t.curAddr.toNat = a' ∧ t.curReg.toNat = r' ∧
      exec .tick t = .next u ∧ u.out = [.push w'] ∧ w'.toNat = (a' * 16 + 12) * 2 ^ 24

/-- 42_polling_events.md R147: both orders of the two bus signals have a run; they leave the same cursor and flag,
and (default UNPACK, a policy that drops an empty capture) only `Eor` first delivers the capture. -/
def Obligations.BothSignalOrders : Prop :=
  ∀ (s : State) (ws : List Word), s.init = true → s.cfg.unpack = .keepAll → s.cfg.emptyPolicy ≠ .always →
    ∃ t u u' : State,
      runOps [.srq ws, .eor []] s = .next t ∧ exec (.eor ws) s = .next u ∧ exec (.srq []) u = .next u' ∧
      t.nextAddr = u'.nextAddr ∧ t.nextReg = u'.nextReg ∧ t.curAddr = u'.curAddr ∧ t.curReg = u'.curReg ∧
      t.srqPending = true ∧ u'.srqPending = true ∧
      t.ring = s.ring ∧ callbacksOf t.out = [] ∧
      u'.ring = u.ring ∧
      callbacksOf u.out = callbackOutput s (delivered s.cfg.emptyPolicy (decodeBytes (unpackBytes .keepAll ws)).1)

/-! ## Ring and decoder -/

/-- 43_scancode_decoder.md R160: the filter, and the first `n` bytes of the payload in order, oldest lost first
(R161). -/
def Obligations.KbdSinkFillsRing : Prop :=
  ∀ (s : State) (a r : Byte) (p : List Byte) (n : Nat), n ≤ p.length → ∃ ring' : List Byte,
    exec (.kbdSink a r p n) s = .next { s with ring := ring', out := [], ret := .none, status := none } ∧
    (¬(a.toNat = s.cfg.kbdAddr.toNat ∧ r.toNat = s.cfg.kbdReg.toNat) → ring' = s.ring) ∧
    (a.toNat = s.cfg.kbdAddr.toNat → r.toNat = s.cfg.kbdReg.toNat → 1 ≤ s.cfg.ringCap →
      s.ring.length ≤ s.cfg.ringCap → ring' = newest s.cfg.ringCap s.ring (p.take n))

/-- A length above the number of payload bytes is no tuple of 30_encoding.md R78; that the step faults there is the
model's choice (log 26). -/
def Obligations.KbdSinkPastPayloadFaults : Prop :=
  ∀ (s : State) (a r : Byte) (p : List Byte) (n : Nat), p.length < n →
    exec (.kbdSink a r p n) s = .fault .payloadIndex

/-- 43_scancode_decoder.md R161: append, with the oldest byte lost from a full ring. -/
def Obligations.RingPutOverwritesOldest : Prop :=
  ∀ (s : State) (b : Byte),
    (s.ring.length ≠ s.cfg.ringCap →
      exec (.ringPut b) s = .next { s with ring := s.ring ++ [b], out := [], ret := .none, status := none }) ∧
    (s.ring.length = s.cfg.ringCap →
      exec (.ringPut b) s = .next { s with ring := s.ring.tail ++ [b], out := [], ret := .none, status := none })

/-- 43_scancode_decoder.md R162: the oldest byte goes into the decoder; an empty ring is no error. -/
def Obligations.ConsumeTakesOldest : Prop :=
  ∀ s : State, s.init = true →
    (s.ring = [] → exec .consume s = .next { s with out := [], ret := .none, status := none }) ∧
    ∀ b rest, s.ring = b :: rest → ∃ t, exec .consume s = .next t ∧
      exec (.scByte b) { s with ring := rest } = .next t ∧ t.ring = rest

/-- 43_scancode_decoder.md R163: every byte has an effect, and it is that of its class, modifiers first. -/
def Obligations.ScancodeByteClasses : Prop :=
  ∀ (s : State) (b : Byte),
    let sc := b.extractLsb' 0 7
    let isMod := sc ∈ [s.cfg.scLGui, s.cfg.scLShift, s.cfg.scRShift, s.cfg.scLCtrl, s.cfg.scLAlt]
    let k := s.cfg.xlat.toList.getD sc.toNat 0
    (∃ (keys : Vector KeyCode 6) (mods : ModFlags),
      exec (.scByte b) s =
        .next { s with keys := keys, mods := mods, out := [], ret := .none, status := none }) ∧
    (isMod → exec (.scByte b) s = exec (.scMod sc (b.getLsbD 7)) s) ∧
    (¬isMod → k = s.cfg.noKey →
      exec (.scByte b) s = .next { s with out := [], ret := .none, status := none }) ∧
    (¬isMod → k ≠ s.cfg.noKey → b.getLsbD 7 = false → exec (.scByte b) s = exec (.keyDown sc) s) ∧
    (¬isMod → k ≠ s.cfg.noKey → b.getLsbD 7 = true → exec (.scByte b) s = exec (.keyUp sc) s)

/-- 43_scancode_decoder.md R164: exactly one of the five flags becomes `NOT release`. -/
def Obligations.ModifierWritesOneFlag : Prop :=
  ∀ (s : State) (rel : Bool), s.cfg.wf = true →
    let wrote (m : ModFlags) : Result := .next { s with mods := m, out := [], ret := .none, status := none }
    exec (.scMod s.cfg.scLGui rel) s = wrote { s.mods with lGui := !rel } ∧
    exec (.scMod s.cfg.scLShift rel) s = wrote { s.mods with lShift := !rel } ∧
    exec (.scMod s.cfg.scRShift rel) s = wrote { s.mods with rShift := !rel } ∧
    exec (.scMod s.cfg.scLCtrl rel) s = wrote { s.mods with lCtrl := !rel } ∧
    exec (.scMod s.cfg.scLAlt rel) s = wrote { s.mods with lAlt := !rel }

/-- 43_scancode_decoder.md R165: a held key changes nothing, another goes to slot 0 and the rest move down. R165's
operand is a code other than NOKEY; that the operand here is any scancode, that a NOKEY translation changes nothing
(as R163 has it for a byte) and that a modifier scancode's translation is used are the model's choice (log 23). -/
def Obligations.KeyDownInsertsFirst : Prop :=
  ∀ (s : State) (sc : Scancode), ∃ keys' : Vector KeyCode 6,
    exec (.keyDown sc) s = .next { s with keys := keys', out := [], ret := .none, status := none } ∧
    let k := s.cfg.xlat.toList.getD sc.toNat 0
    (k = s.cfg.noKey → keys' = s.keys) ∧
    (k ≠ s.cfg.noKey → (∃ i : Fin 6, s.keys[i] = k) → keys' = s.keys) ∧
    (k ≠ s.cfg.noKey → (∀ i : Fin 6, s.keys[i] ≠ k) →
      keys'[0] = k ∧ ∀ i : Fin 6, 0 < i.val → keys'[i] = s.keys[i.val - 1])

/-- 43_scancode_decoder.md R166: the first slot with the key is closed up and the last takes NOKEY; an absent
key changes nothing. R166's operand is a code other than NOKEY; that the operand here is any scancode, that a NOKEY
translation changes nothing (as R163 has it for a byte) and that a modifier scancode's translation is used are the
model's choice (log 23). -/
def Obligations.KeyUpClosesGap : Prop :=
  ∀ (s : State) (sc : Scancode), ∃ keys' : Vector KeyCode 6,
    exec (.keyUp sc) s = .next { s with keys := keys', out := [], ret := .none, status := none } ∧
    let k := s.cfg.xlat.toList.getD sc.toNat 0
    (k = s.cfg.noKey → keys' = s.keys) ∧
    (k ≠ s.cfg.noKey → (∀ i : Fin 6, s.keys[i] ≠ k) → keys' = s.keys) ∧
    (k ≠ s.cfg.noKey → ∀ i : Fin 6, s.keys[i] = k → (∀ j : Fin 6, j < i → s.keys[j] ≠ k) →
      (∀ j : Fin 6, j < i → keys'[j] = s.keys[j]) ∧
      (∀ j : Fin 5, i.val ≤ j.val → keys'[j.val] = s.keys[j.val + 1]) ∧ keys'[5] = s.cfg.noKey)

/-- 00_scope.md R8, 43_scancode_decoder.md R163: `KeyCode` is a parameter. Whatever the type `K` of codes, its NOKEY,
table and key list, the codes can be numbered without confusion, and under every such numbering a key byte does to
the machine's `KEYS` what R163 to R166 do to the list over `K`, which stays a list of those codes (that the state
numbers the codes is the model's choice, log 5). -/
def Obligations.KeyCodeIsParameter : Prop :=
  ∀ (K : Type) [DecidableEq K] (nk : K) (xlat : Vector K 256) (ks : Vector K 6),
    let codes := nk :: (xlat.toList ++ ks.toList)
    (∃ f : K → KeyCode, ∀ x ∈ codes, ∀ y ∈ codes, f x = f y → x = y) ∧
    ∀ (f : K → KeyCode) (s : State) (b : Byte), (∀ x ∈ codes, ∀ y ∈ codes, f x = f y → x = y) →
      s.cfg.noKey = f nk → s.cfg.xlat = xlat.map f → s.keys = ks.map f →
      isModifier s.cfg (scancodeOf b) = false →
      let ks' := keysAfterCode nk (lookupCode xlat (scancodeOf b)) (releaseBit b) ks
      exec (.scByte b) s = .next { s with keys := ks'.map f, out := [], ret := .none, status := none } ∧
      ∀ k ∈ ks'.toList, k ∈ codes

/-- 43_scancode_decoder.md R168: a snapshot of the key state, with no side effect. -/
def Obligations.KeyStateSnapshot : Prop :=
  ∀ s : State, s.init = true →
    exec .keyStateRead s = .next { s with out := [], ret := .keyState s.keys s.mods, status := none }

/-- 43_scancode_decoder.md R169: pressing twice is pressing once, and A, B, C down then B up leaves C, A. -/
def Obligations.KeyOrderAndIdempotence : Prop :=
  (∀ (s : State) (b : Byte), b.getLsbD 7 = false → isModifier s.cfg (scancodeOf b) = false →
    ∃ t u, exec (.scByte b) s = .next t ∧ exec (.scByte b) t = .next u ∧ u.keys = t.keys) ∧
  ∀ (s : State) (sa sb sc : Scancode),
    let nk := s.cfg.noKey
    let a := translate s.cfg sa
    let b := translate s.cfg sb
    let c := translate s.cfg sc
    (∀ x ∈ [sa, sb, sc], isModifier s.cfg x = false) → [a, b, c, nk].Nodup → s.keys = #v[nk, nk, nk, nk, nk, nk] →
    ∃ t u,
      runOps [.scByte (scancodeByte false sa), .scByte (scancodeByte false sb), .scByte (scancodeByte false sc)] s
        = .next t ∧ t.keys = #v[c, b, a, nk, nk, nk] ∧
      exec (.scByte (scancodeByte true sb)) t = .next u ∧ u.keys = #v[c, a, nk, nk, nk, nk]

/-! ## The whole machine -/

/-- 10_state.md R26: at power-on `INIT = 0` and the timer does not run. That the interrupt's handler is not installed
is read from 60_exceptions.md R184 (log 27), and that no status stands in the model's own field is the model's choice
(log 9). -/
def Obligations.PowerOnState : Prop :=
  State.reset.init = false ∧ State.reset.timer = .stopped ∧ State.reset.busIrq = false ∧
    State.reset.status = none ∧ Sys2Proof.core.reset = State.reset

/-- The invariant of Safety.lean holds at power-on (with the reset parameters of logs 1 to 5). -/
def Obligations.PowerOnMeetsInv : Prop := State.reset.Inv

/-- 10_state.md R24, R25, R20, R19, 60_exceptions.md R189: every step keeps the invariant. -/
def Obligations.StepKeepsInv : Prop :=
  ∀ s t : State, s.Inv → step s = .next t → t.Inv

/-- 60_exceptions.md R184 (the only inputs with no transition come before `init`): once initialised, the machine goes
on from every input the decoder accepts. That an input which raises a status also goes on, where R181 lets a model
refuse it, is the model's choice (log 8). -/
def Obligations.NoStopAfterInit : Prop :=
  ∀ (s : State) (p : Packet) (rest : List Packet) (i : Instr), s.init = true → s.inputs = p :: rest →
    decode s.cfg p = .ok i → s.Safe

/-- 10_state.md R11: the complete list of writers of the Poll Cursor. -/
def Obligations.CursorWriters : Prop :=
  ∀ (i : Instr) (s t : State), exec i s = .next t → (∀ p cb, i ≠ .init p cb) →
    (i ≠ .tick → t.curAddr = s.curAddr ∧ t.curReg = s.curReg) ∧
    ((∀ a r, i ≠ .talk a r) → (∀ ws, i ≠ .srq ws) → t.nextAddr = s.nextAddr) ∧
    (i ≠ .tick → (∀ a r, i ≠ .talk a r) → (∀ ws, i ≠ .srq ws) → t.nextReg = s.nextReg)

/-- 10_state.md R12: the writers of the Raw Capture Buffer and of its count; DEC.FRAME as an input of its own is the
model's (log 22). -/
def Obligations.CaptureWriters : Prop :=
  ∀ (i : Instr) (s t : State), exec i s = .next t → (∀ ws, i ≠ .eor ws) →
    (i ≠ .decFrame → t.cap = s.cap) ∧ t.freeCount = s.freeCount ∧
    ((∀ ws, i ≠ .srq ws) → (∀ a, i ≠ .flush a) → i ≠ .reset → (∀ p cb, i ≠ .init p cb) → t.capN = s.capN)

/-- 10_state.md R16: the writers of `SRQ_PENDING`. -/
def Obligations.SrqPendingWriters : Prop :=
  ∀ (i : Instr) (s t : State), exec i s = .next t → t.status = none →
    ((∃ ws, i = .srq ws) → t.srqPending = true) ∧
    ((i = .srqPend ∨ ∃ p cb, i = .init p cb) → t.srqPending = false) ∧
    ((∀ ws, i ≠ .srq ws) → i ≠ .srqPend → (∀ p cb, i ≠ .init p cb) → t.srqPending = s.srqPending)

/-- 60_exceptions.md R195: the interrupt handlers never touch `KEYS` or the modifier flags; and of all operations
only the decoder's and `init` do (10_state.md R18, R19). -/
def Obligations.KeyStateWriters : Prop :=
  ∀ (i : Instr) (s t : State), exec i s = .next t → (t.keys ≠ s.keys ∨ t.mods ≠ s.mods) →
    (∃ p cb, i = .init p cb) ∨ i = .consume ∨ (∃ b, i = .scByte b) ∨ (∃ sc rel, i = .scMod sc rel) ∨
    (∃ sc, i = .keyDown sc) ∨ ∃ sc, i = .keyUp sc

/-- 43_scancode_decoder.md R170, 10_state.md R19: no operation sets one of the four flags without a trigger. -/
def Obligations.UntriggeredFlagsNeverSet : Prop :=
  ∀ (i : Instr) (s t : State), exec i s = .next t →
    untriggered t.mods = untriggered s.mods ∨
      (untriggered t.mods = [false, false, false, false] ∧ s.init = false ∧ ∃ p cb, i = .init p cb)

/-- 10_state.md R15, 70_reset_and_hazards.md R211: `INIT` is set by `init` only and for ever, and `CB` and `PIN` are
not written after that. -/
def Obligations.InitialisedForEver : Prop :=
  ∀ (i : Instr) (s t : State), exec i s = .next t →
    (s.init = true → t.init = true ∧ t.cb = s.cb ∧ t.pin = s.pin ∧ t.timer = s.timer ∧ t.busIrq = s.busIrq) ∧
    (s.init = false → t.init = true → ∃ p cb, i = .init p cb ∧ t.cb = cb ∧ t.pin = p)

/-- 10_state.md R21: no step writes `XLAT`, nor any other parameter of 00_scope.md R8. -/
def Obligations.ParametersReadOnly : Prop :=
  ∀ s t : State, step s = .next t → t.cfg = s.cfg

/-- 20_memory.md R57, R46: `TXQ` takes the pushed words in the order of the pushes, and only `Tick`, `flush` and
`listen` push. That the queue keeps every word between steps is the model's choice (logs 12, 13). -/
def Obligations.PushesReachQueueInOrder : Prop :=
  ∀ (i : Instr) (s t : State), exec i s = .next t →
    ((∀ p cb, i ≠ .init p cb) → t.be.txq = s.be.txq ++ pushesOf t.out) ∧
    (pushesOf t.out ≠ [] → i = .tick ∨ (∃ a, i = .flush a) ∨ ∃ a r bs, i = .listen a r bs)

/-- 42_polling_events.md R146: at most one callback per `Eor` step (or dispatch), none from any other; the dispatch as
an input of its own is the model's (log 22). -/
def Obligations.AtMostOneCallback : Prop :=
  ∀ (i : Instr) (s t : State), exec i s = .next t →
    (callbacksOf t.out).length ≤ 1 ∧
    ((∀ ws, i ≠ .eor ws) → (∀ r, i ≠ .onData r) → callbacksOf t.out = [])

/-- 60_exceptions.md R181, 41_bus_master_ops.md R126: whatever the operation, a step that raises a status has
changed nothing and emitted nothing. That it is a next state at all is the model's choice (log 8). -/
def Obligations.RaiseChangesNothing : Prop :=
  ∀ (i : Instr) (s t : State), exec i s = .next t → t.status ≠ none →
    t = { s with out := [], ret := .none, status := t.status }

/-- 20_memory.md R61, R58: after `init`, `reset`, `flush`, `Srq` the backend holds no captured bit and `CAP_N` is
0; after `Eor` the backend holds none. -/
def Obligations.CapturesCleared : Prop :=
  ∀ (i : Instr) (s t : State), exec i s = .next t → t.status = none →
    ((∃ p cb, i = .init p cb) ∨ i = .reset ∨ (∃ a, i = .flush a) ∨ (∃ ws, i = .srq ws) →
      t.be.rxq = [] ∧ t.be.resid = [] ∧ t.capN = 0) ∧
    ((∃ ws, i = .eor ws) → t.be.rxq = [] ∧ t.be.resid = [])

/-! ## Encodings and the step -/

/-- Decode and encode agree: every well-formed operation is read back from its encoding (30_encoding.md R71, R72
to R74, R77; the lines of R83 in the form of log 11). -/
def Obligations.DecodeInvertsEncode : Prop :=
  ∀ (c : Params) (i : Instr), c.wf = true → i.wellFormed c = true → decode c (encode c i) = .ok i

/-- The other direction, on the bit formats: an input that decodes is the encoding of what it decodes to, but
for the low 24 bits of a command word (30_encoding.md R70) and a scancode byte that is no modifier and has no key
(R80), which is SC.BYTE of itself (log 11). -/
def Obligations.EncodeInvertsDecode : Prop :=
  ∀ (c : Params) (i : Instr),
    (∀ w, decode c (.cw w) = .ok i → encode c i = .cw (w &&& 0xFF000000#32)) ∧
    (∀ ws, decode c (.lf ws) = .ok i → encode c i = .lf ws) ∧
    (∀ b, decode c (.sb b) = .ok i → encode c i = .sb b ∨
      (i = .scByte b ∧ isModifier c (scancodeOf b) = false ∧ translate c (scancodeOf b) = c.noKey))

/-- 30_encoding.md R79: the command bytes are partitioned; with admissible parameters a Flush byte is no Talk and no
Listen byte, and exactly the last row's bytes are rejected. -/
def Obligations.CommandBytesPartitioned : Prop :=
  ∀ (c : Params) (cb : Byte), c.wf = true →
    (cb.extractLsb' 2 2 = 0b11#2 →
      decode c (.cw (cb ++ 0#24)) = .ok (.cmdTalk (cb.extractLsb' 4 4) (cb.extractLsb' 0 2))) ∧
    (cb.extractLsb' 2 2 = 0b10#2 →
      decode c (.cw (cb ++ 0#24)) = .ok (.cmdListen (cb.extractLsb' 4 4) (cb.extractLsb' 0 2))) ∧
    (cb = 0#8 → decode c (.cw (cb ++ 0#24)) = .ok .cmdReset) ∧
    (cb ≠ 0#8 → cb.extractLsb' 0 4 = c.flushNibble →
      decode c (.cw (cb ++ 0#24)) = .ok (.cmdFlush (cb.extractLsb' 4 4))) ∧
    (cb.extractLsb' 3 1 = 0#1 → cb ≠ 0#8 → cb.extractLsb' 0 4 ≠ c.flushNibble →
      decode c (.cw (cb ++ 0#24)) = .error .undefinedCommandByte)

/-- 30_encoding.md R77, 43_scancode_decoder.md R163: every scancode byte decodes, and what it decodes to does what
SC.BYTE does with the byte; that a byte decodes to its finest row is the model's choice (log 11). -/
def Obligations.ScancodeBytesDecode : Prop :=
  ∀ (s : State) (b : Byte), ∃ i, decode s.cfg (.sb b) = .ok i ∧ exec i s = exec (.scByte b) s

/-- A step runs the operation that the next input decodes to, and takes that input; an input that does not decode is
refused with the decoder's reason, and with no input the block waits (00_scope.md R6; logs 10, 11). -/
def Obligations.StepRunsNextInput : Prop :=
  ∀ (s : State) (p : Packet) (rest : List Packet), s.inputs = p :: rest →
    (∀ i, decode s.cfg p = .ok i → step s = exec i { s with inputs := rest }) ∧
    (∀ e, decode s.cfg p = .error e → step s = .refused (.undecodable e)) ∧
    step { s with inputs := [] } = .next { s with inputs := [] }

/-- The input that `withFetchWord` places is the one the very next step takes. -/
def Obligations.FetchWordIsNext : Prop :=
  ∀ (s : State) (nbits w : Nat) (i : Instr), decode s.cfg (packetOfBits nbits w) = .ok i →
    step (s.withFetchWord nbits w) = exec i s

/-- Words written out from 30_encoding.md R71, R72 and R77, and what they decode to (the default FLUSH_NIBBLE and
modifier scancodes are PRESUMED, logs 2 and 3; the table is the model's, log 4). -/
def Obligations.SampleWordsDecode : Prop :=
  decodeTableWord 32 0x00000000 = some .cmdReset ∧
  decodeTableWord 32 0xF1000000 = some (.cmdFlush 15) ∧
  decodeTableWord 32 0x7F000000 = some (.cmdTalk 7 3) ∧
  decodeTableWord 32 0x3A000000 = some (.cmdListen 3 2) ∧
  decodeTableWord 64 0xEF55000027DEADBE = some (.encListen [0xDE, 0xAD, 0xBE, 0xEF, 0x55]) ∧
  decodeTableWord 8 0xB8 = some (.scMod 0x38 true) ∧
  decodeTableWord 8 0x04 = some (.keyDown 4) ∧
  decodeTableWord 8 0x81 = some (.keyUp 1) ∧
  decodeTableWord 8 0xFF = some (.scByte 0xFF)
end

