-- ==== Sys2Proof/Laws/Codec.lean ====
section
/-! SUPPORT. The codec's arithmetic: words and bytes are inverse (20_memory.md R49), the listen frame is its bytes
(30_encoding.md R72 to R74), and the frame decode by its start (40_frame_codec.md R106). -/

namespace Sys2Proof.Machine

/-! ## Words and bytes -/

/-- `BYTES(BE32(b0, b1, b2, b3)) = [b0, b1, b2, b3]` (R49). -/
theorem bytesOf_be32 (b0 b1 b2 b3 : Byte) : bytesOf (be32 b0 b1 b2 b3) = [b0, b1, b2, b3] := by
  simp only [bytesOf, be32, List.cons.injEq, and_true]
  refine ⟨?_, ?_, ?_, ?_⟩ <;>
    · apply BitVec.eq_of_getLsbD_eq
      intro i hi
      interval_cases i <;> simp

/-- A word is determined by its bytes. -/
theorem be32_bytesOf (w : Word) :
    be32 (w.extractLsb' 24 8) (w.extractLsb' 16 8) (w.extractLsb' 8 8) (w.extractLsb' 0 8) = w := by
  apply BitVec.eq_of_getLsbD_eq
  intro i hi
  interval_cases i <;> simp [be32]

theorem bytesOf_length (w : Word) : (bytesOf w).length = 4 := rfl

theorem flatMap_bytesOf_length (ws : List Word) : (ws.flatMap bytesOf).length = 4 * ws.length := by
  induction ws with
  | nil => rfl
  | cons w ws ih => simp [ih, bytesOf_length]; omega

/-- Packing a whole number of words loses nothing. -/
theorem flatMap_bytesOf_packWords (n : Nat) (bs : List Byte) (h : bs.length = 4 * n) :
    (packWords bs).flatMap bytesOf = bs ∧ (packWords bs).length = n := by
  induction n generalizing bs with
  | zero =>
    obtain rfl := List.eq_nil_of_length_eq_zero (by omega : bs.length = 0)
    simp [packWords]
  | succ n ih =>
    match bs, h with
    | b0 :: b1 :: b2 :: b3 :: rest, h =>
      obtain ⟨h1, h2⟩ := ih rest (by simp at h; omega)
      simp [packWords, h1, h2, bytesOf_be32]
    | [], h => simp at h
    | [_], h => simp at h; omega
    | [_, _], h => simp at h; omega
    | [_, _, _], h => simp at h; omega

/-- Words are the packing of their bytes. -/
theorem packWords_flatMap_bytesOf (ws : List Word) : packWords (ws.flatMap bytesOf) = ws := by
  induction ws with
  | nil => rfl
  | cons w ws ih => simp [bytesOf, packWords, be32_bytesOf, ih]

/-! ## The listen frame -/

theorem listenBytes_length (p : List Byte) : (listenBytes p).length = 4 * listenWordCount p.length := by
  simp [listenBytes, listenWordCount]; omega

/-- The words of a listen frame are its bytes, in as many words as R107 counts. -/
theorem encodeListen_bytes (p : List Byte) :
    (encodeListen p).flatMap bytesOf = listenBytes p ∧ (encodeListen p).length = listenWordCount p.length :=
  flatMap_bytesOf_packWords _ _ (listenBytes_length p)

/-- The header byte in the integers (R73): 255 for no byte. -/
theorem listenHeader_eq (n : Nat) : listenHeader n = BitVec.ofNat 8 ((8 * n + 255) % 256) := by
  apply BitVec.eq_of_toNat_eq
  simp [listenHeader]
  omega

/-! ## The frame decode -/

theorem shiftBytes_length (bs : List Byte) : (shiftBytes bs).length = bs.length := by
  induction bs using shiftBytes.induct with
  | case1 => rfl
  | case2 => rfl
  | case3 b c rest ih => simp only [shiftBytes, List.length_cons, ih]

/-- Each byte of the shift, by its index. -/
theorem shiftBytes_getElem? (bs : List Byte) (i : Nat) : (shiftBytes bs)[i]? =
    (bs[i]?).map fun b : Byte => (b <<< 1) ||| (bs.getD (i + 1) 0#8 >>> 7) := by
  induction bs using shiftBytes.induct generalizing i with
  | case1 => simp [shiftBytes]
  | case2 b => cases i <;> simp [shiftBytes]
  | case3 b c rest ih =>
    cases i with
    | zero => simp [shiftBytes]
    | succ i => simpa [shiftBytes] using ih i

/-- With no non-zero byte there is no frame and nothing moves. -/
theorem decodeBytes_zeros (bs : List Byte) (h : ∀ b ∈ bs, b = 0#8) : decodeBytes bs = (.noFrame, bs) := by
  have : bs.dropWhile (· == 0#8) = [] := List.dropWhile_eq_nil_iff.mpr (by simpa using h)
  simp [decodeBytes, this]

/-- With zeros before the first non-zero byte, the frame is the shift from that byte, less its last byte. -/
theorem decodeBytes_start (k : Nat) (b : Byte) (rest : List Byte) (h : b ≠ 0#8) :
    decodeBytes (List.replicate k 0#8 ++ b :: rest) =
      (.frame (shiftBytes (b :: rest)).dropLast, List.replicate k 0#8 ++ shiftBytes (b :: rest)) := by
  have h1 : (List.replicate k 0#8 ++ b :: rest).dropWhile (· == 0#8) = b :: rest := by
    rw [List.dropWhile_append_of_pos (by simp)]
    simp [h]
  have h2 : (List.replicate k 0#8 ++ b :: rest).takeWhile (· == 0#8) = List.replicate k 0#8 := by
    rw [List.takeWhile_append_of_pos (by simp)]
    simp [h]
  simp [decodeBytes, h1, h2]

end Sys2Proof.Machine
end

