-- ==== Sys2Proof/Laws/State.lean ====
section
/-! SUPPORT. One lemma per field per update of the state, so that no proof unfolds an update. Each name is the
update's and the field's. -/

namespace Sys2Proof.Machine

variable (s : State)

/-! ## clearOutputs -/

@[simp] theorem clearOutputs_init : s.clearOutputs.init = s.init := rfl
@[simp] theorem clearOutputs_cb : s.clearOutputs.cb = s.cb := rfl
@[simp] theorem clearOutputs_pin : s.clearOutputs.pin = s.pin := rfl
@[simp] theorem clearOutputs_curAddr : s.clearOutputs.curAddr = s.curAddr := rfl
@[simp] theorem clearOutputs_curReg : s.clearOutputs.curReg = s.curReg := rfl
@[simp] theorem clearOutputs_nextAddr : s.clearOutputs.nextAddr = s.nextAddr := rfl
@[simp] theorem clearOutputs_nextReg : s.clearOutputs.nextReg = s.nextReg := rfl
@[simp] theorem clearOutputs_cap : s.clearOutputs.cap = s.cap := rfl
@[simp] theorem clearOutputs_capN : s.clearOutputs.capN = s.capN := rfl
@[simp] theorem clearOutputs_srqPending : s.clearOutputs.srqPending = s.srqPending := rfl
@[simp] theorem clearOutputs_ring : s.clearOutputs.ring = s.ring := rfl
@[simp] theorem clearOutputs_keys : s.clearOutputs.keys = s.keys := rfl
@[simp] theorem clearOutputs_mods : s.clearOutputs.mods = s.mods := rfl
@[simp] theorem clearOutputs_cfg : s.clearOutputs.cfg = s.cfg := rfl
@[simp] theorem clearOutputs_timer : s.clearOutputs.timer = s.timer := rfl
@[simp] theorem clearOutputs_busIrq : s.clearOutputs.busIrq = s.busIrq := rfl
@[simp] theorem clearOutputs_be : s.clearOutputs.be = s.be := rfl
@[simp] theorem clearOutputs_freeCount : s.clearOutputs.freeCount = s.freeCount := rfl
@[simp] theorem clearOutputs_inputs : s.clearOutputs.inputs = s.inputs := rfl
@[simp] theorem clearOutputs_out : s.clearOutputs.out = [] := rfl
@[simp] theorem clearOutputs_ret : s.clearOutputs.ret = .none := rfl
@[simp] theorem clearOutputs_status : s.clearOutputs.status = none := rfl

/-! ## returning -/

@[simp] theorem returning_init (r : Ret) : (s.returning r).init = s.init := rfl
@[simp] theorem returning_cb (r : Ret) : (s.returning r).cb = s.cb := rfl
@[simp] theorem returning_pin (r : Ret) : (s.returning r).pin = s.pin := rfl
@[simp] theorem returning_curAddr (r : Ret) : (s.returning r).curAddr = s.curAddr := rfl
@[simp] theorem returning_curReg (r : Ret) : (s.returning r).curReg = s.curReg := rfl
@[simp] theorem returning_nextAddr (r : Ret) : (s.returning r).nextAddr = s.nextAddr := rfl
@[simp] theorem returning_nextReg (r : Ret) : (s.returning r).nextReg = s.nextReg := rfl
@[simp] theorem returning_cap (r : Ret) : (s.returning r).cap = s.cap := rfl
@[simp] theorem returning_capN (r : Ret) : (s.returning r).capN = s.capN := rfl
@[simp] theorem returning_srqPending (r : Ret) : (s.returning r).srqPending = s.srqPending := rfl
@[simp] theorem returning_ring (r : Ret) : (s.returning r).ring = s.ring := rfl
@[simp] theorem returning_keys (r : Ret) : (s.returning r).keys = s.keys := rfl
@[simp] theorem returning_mods (r : Ret) : (s.returning r).mods = s.mods := rfl
@[simp] theorem returning_cfg (r : Ret) : (s.returning r).cfg = s.cfg := rfl
@[simp] theorem returning_timer (r : Ret) : (s.returning r).timer = s.timer := rfl
@[simp] theorem returning_busIrq (r : Ret) : (s.returning r).busIrq = s.busIrq := rfl
@[simp] theorem returning_be (r : Ret) : (s.returning r).be = s.be := rfl
@[simp] theorem returning_freeCount (r : Ret) : (s.returning r).freeCount = s.freeCount := rfl
@[simp] theorem returning_inputs (r : Ret) : (s.returning r).inputs = s.inputs := rfl
@[simp] theorem returning_out (r : Ret) : (s.returning r).out = s.out := rfl
@[simp] theorem returning_ret (r : Ret) : (s.returning r).ret = r := rfl
@[simp] theorem returning_status (r : Ret) : (s.returning r).status = s.status := rfl

/-! ## raise -/

@[simp] theorem raise_init (e : ErrorStatus) : (raise e s).init = s.init := rfl
@[simp] theorem raise_cb (e : ErrorStatus) : (raise e s).cb = s.cb := rfl
@[simp] theorem raise_pin (e : ErrorStatus) : (raise e s).pin = s.pin := rfl
@[simp] theorem raise_curAddr (e : ErrorStatus) : (raise e s).curAddr = s.curAddr := rfl
@[simp] theorem raise_curReg (e : ErrorStatus) : (raise e s).curReg = s.curReg := rfl
@[simp] theorem raise_nextAddr (e : ErrorStatus) : (raise e s).nextAddr = s.nextAddr := rfl
@[simp] theorem raise_nextReg (e : ErrorStatus) : (raise e s).nextReg = s.nextReg := rfl
@[simp] theorem raise_cap (e : ErrorStatus) : (raise e s).cap = s.cap := rfl
@[simp] theorem raise_capN (e : ErrorStatus) : (raise e s).capN = s.capN := rfl
@[simp] theorem raise_srqPending (e : ErrorStatus) : (raise e s).srqPending = s.srqPending := rfl
@[simp] theorem raise_ring (e : ErrorStatus) : (raise e s).ring = s.ring := rfl
@[simp] theorem raise_keys (e : ErrorStatus) : (raise e s).keys = s.keys := rfl
@[simp] theorem raise_mods (e : ErrorStatus) : (raise e s).mods = s.mods := rfl
@[simp] theorem raise_cfg (e : ErrorStatus) : (raise e s).cfg = s.cfg := rfl
@[simp] theorem raise_timer (e : ErrorStatus) : (raise e s).timer = s.timer := rfl
@[simp] theorem raise_busIrq (e : ErrorStatus) : (raise e s).busIrq = s.busIrq := rfl
@[simp] theorem raise_be (e : ErrorStatus) : (raise e s).be = s.be := rfl
@[simp] theorem raise_freeCount (e : ErrorStatus) : (raise e s).freeCount = s.freeCount := rfl
@[simp] theorem raise_inputs (e : ErrorStatus) : (raise e s).inputs = s.inputs := rfl
@[simp] theorem raise_out (e : ErrorStatus) : (raise e s).out = [] := rfl
@[simp] theorem raise_ret (e : ErrorStatus) : (raise e s).ret = .none := rfl
@[simp] theorem raise_status (e : ErrorStatus) : (raise e s).status = some e := rfl

/-! ## emit -/

@[simp] theorem emit_init (o : Output) : (s.emit o).init = s.init := rfl
@[simp] theorem emit_cb (o : Output) : (s.emit o).cb = s.cb := rfl
@[simp] theorem emit_pin (o : Output) : (s.emit o).pin = s.pin := rfl
@[simp] theorem emit_curAddr (o : Output) : (s.emit o).curAddr = s.curAddr := rfl
@[simp] theorem emit_curReg (o : Output) : (s.emit o).curReg = s.curReg := rfl
@[simp] theorem emit_nextAddr (o : Output) : (s.emit o).nextAddr = s.nextAddr := rfl
@[simp] theorem emit_nextReg (o : Output) : (s.emit o).nextReg = s.nextReg := rfl
@[simp] theorem emit_cap (o : Output) : (s.emit o).cap = s.cap := rfl
@[simp] theorem emit_capN (o : Output) : (s.emit o).capN = s.capN := rfl
@[simp] theorem emit_srqPending (o : Output) : (s.emit o).srqPending = s.srqPending := rfl
@[simp] theorem emit_ring (o : Output) : (s.emit o).ring = s.ring := rfl
@[simp] theorem emit_keys (o : Output) : (s.emit o).keys = s.keys := rfl
@[simp] theorem emit_mods (o : Output) : (s.emit o).mods = s.mods := rfl
@[simp] theorem emit_cfg (o : Output) : (s.emit o).cfg = s.cfg := rfl
@[simp] theorem emit_timer (o : Output) : (s.emit o).timer = s.timer := rfl
@[simp] theorem emit_busIrq (o : Output) : (s.emit o).busIrq = s.busIrq := rfl
@[simp] theorem emit_be (o : Output) : (s.emit o).be = s.be := rfl
@[simp] theorem emit_freeCount (o : Output) : (s.emit o).freeCount = s.freeCount := rfl
@[simp] theorem emit_inputs (o : Output) : (s.emit o).inputs = s.inputs := rfl
@[simp] theorem emit_out (o : Output) : (s.emit o).out = s.out ++ [o] := rfl
@[simp] theorem emit_ret (o : Output) : (s.emit o).ret = s.ret := rfl
@[simp] theorem emit_status (o : Output) : (s.emit o).status = s.status := rfl

/-! ## bePush -/

@[simp] theorem bePush_init (w : Word) : (bePush w s).init = s.init := rfl
@[simp] theorem bePush_cb (w : Word) : (bePush w s).cb = s.cb := rfl
@[simp] theorem bePush_pin (w : Word) : (bePush w s).pin = s.pin := rfl
@[simp] theorem bePush_curAddr (w : Word) : (bePush w s).curAddr = s.curAddr := rfl
@[simp] theorem bePush_curReg (w : Word) : (bePush w s).curReg = s.curReg := rfl
@[simp] theorem bePush_nextAddr (w : Word) : (bePush w s).nextAddr = s.nextAddr := rfl
@[simp] theorem bePush_nextReg (w : Word) : (bePush w s).nextReg = s.nextReg := rfl
@[simp] theorem bePush_cap (w : Word) : (bePush w s).cap = s.cap := rfl
@[simp] theorem bePush_capN (w : Word) : (bePush w s).capN = s.capN := rfl
@[simp] theorem bePush_srqPending (w : Word) : (bePush w s).srqPending = s.srqPending := rfl
@[simp] theorem bePush_ring (w : Word) : (bePush w s).ring = s.ring := rfl
@[simp] theorem bePush_keys (w : Word) : (bePush w s).keys = s.keys := rfl
@[simp] theorem bePush_mods (w : Word) : (bePush w s).mods = s.mods := rfl
@[simp] theorem bePush_cfg (w : Word) : (bePush w s).cfg = s.cfg := rfl
@[simp] theorem bePush_timer (w : Word) : (bePush w s).timer = s.timer := rfl
@[simp] theorem bePush_busIrq (w : Word) : (bePush w s).busIrq = s.busIrq := rfl
@[simp] theorem bePush_be (w : Word) : (bePush w s).be = { s.be with txq := s.be.txq ++ [w] } := rfl
@[simp] theorem bePush_freeCount (w : Word) : (bePush w s).freeCount = s.freeCount := rfl
@[simp] theorem bePush_inputs (w : Word) : (bePush w s).inputs = s.inputs := rfl
@[simp] theorem bePush_out (w : Word) : (bePush w s).out = s.out ++ [.push w] := rfl
@[simp] theorem bePush_ret (w : Word) : (bePush w s).ret = s.ret := rfl
@[simp] theorem bePush_status (w : Word) : (bePush w s).status = s.status := rfl

/-! ## beForceFlush -/

@[simp] theorem beForceFlush_init (ws : List Word) : (beForceFlush ws s).init = s.init := rfl
@[simp] theorem beForceFlush_cb (ws : List Word) : (beForceFlush ws s).cb = s.cb := rfl
@[simp] theorem beForceFlush_pin (ws : List Word) : (beForceFlush ws s).pin = s.pin := rfl
@[simp] theorem beForceFlush_curAddr (ws : List Word) : (beForceFlush ws s).curAddr = s.curAddr := rfl
@[simp] theorem beForceFlush_curReg (ws : List Word) : (beForceFlush ws s).curReg = s.curReg := rfl
@[simp] theorem beForceFlush_nextAddr (ws : List Word) : (beForceFlush ws s).nextAddr = s.nextAddr := rfl
@[simp] theorem beForceFlush_nextReg (ws : List Word) : (beForceFlush ws s).nextReg = s.nextReg := rfl
@[simp] theorem beForceFlush_cap (ws : List Word) : (beForceFlush ws s).cap = s.cap := rfl
@[simp] theorem beForceFlush_capN (ws : List Word) : (beForceFlush ws s).capN = s.capN := rfl
@[simp] theorem beForceFlush_srqPending (ws : List Word) : (beForceFlush ws s).srqPending = s.srqPending := rfl
@[simp] theorem beForceFlush_ring (ws : List Word) : (beForceFlush ws s).ring = s.ring := rfl
@[simp] theorem beForceFlush_keys (ws : List Word) : (beForceFlush ws s).keys = s.keys := rfl
@[simp] theorem beForceFlush_mods (ws : List Word) : (beForceFlush ws s).mods = s.mods := rfl
@[simp] theorem beForceFlush_cfg (ws : List Word) : (beForceFlush ws s).cfg = s.cfg := rfl
@[simp] theorem beForceFlush_timer (ws : List Word) : (beForceFlush ws s).timer = s.timer := rfl
@[simp] theorem beForceFlush_busIrq (ws : List Word) : (beForceFlush ws s).busIrq = s.busIrq := rfl
@[simp] theorem beForceFlush_be (ws : List Word) :
    (beForceFlush ws s).be = { s.be with rxq := ws, resid := [] } := rfl
@[simp] theorem beForceFlush_freeCount (ws : List Word) : (beForceFlush ws s).freeCount = s.freeCount := rfl
@[simp] theorem beForceFlush_inputs (ws : List Word) : (beForceFlush ws s).inputs = s.inputs := rfl
@[simp] theorem beForceFlush_out (ws : List Word) : (beForceFlush ws s).out = s.out ++ [.forceFlush] := rfl
@[simp] theorem beForceFlush_ret (ws : List Word) : (beForceFlush ws s).ret = s.ret := rfl
@[simp] theorem beForceFlush_status (ws : List Word) : (beForceFlush ws s).status = s.status := rfl

/-! ## beRestart -/

@[simp] theorem beRestart_init : (beRestart s).init = s.init := rfl
@[simp] theorem beRestart_cb : (beRestart s).cb = s.cb := rfl
@[simp] theorem beRestart_pin : (beRestart s).pin = s.pin := rfl
@[simp] theorem beRestart_curAddr : (beRestart s).curAddr = s.curAddr := rfl
@[simp] theorem beRestart_curReg : (beRestart s).curReg = s.curReg := rfl
@[simp] theorem beRestart_nextAddr : (beRestart s).nextAddr = s.nextAddr := rfl
@[simp] theorem beRestart_nextReg : (beRestart s).nextReg = s.nextReg := rfl
@[simp] theorem beRestart_cap : (beRestart s).cap = s.cap := rfl
@[simp] theorem beRestart_capN : (beRestart s).capN = s.capN := rfl
@[simp] theorem beRestart_srqPending : (beRestart s).srqPending = s.srqPending := rfl
@[simp] theorem beRestart_ring : (beRestart s).ring = s.ring := rfl
@[simp] theorem beRestart_keys : (beRestart s).keys = s.keys := rfl
@[simp] theorem beRestart_mods : (beRestart s).mods = s.mods := rfl
@[simp] theorem beRestart_cfg : (beRestart s).cfg = s.cfg := rfl
@[simp] theorem beRestart_timer : (beRestart s).timer = s.timer := rfl
@[simp] theorem beRestart_busIrq : (beRestart s).busIrq = s.busIrq := rfl
@[simp] theorem beRestart_be : (beRestart s).be = { s.be with pc := 0 } := rfl
@[simp] theorem beRestart_freeCount : (beRestart s).freeCount = s.freeCount := rfl
@[simp] theorem beRestart_inputs : (beRestart s).inputs = s.inputs := rfl
@[simp] theorem beRestart_out : (beRestart s).out = s.out ++ [.restart] := rfl
@[simp] theorem beRestart_ret : (beRestart s).ret = s.ret := rfl
@[simp] theorem beRestart_status : (beRestart s).status = s.status := rfl

/-! ## beDisable -/

@[simp] theorem beDisable_init : (beDisable s).init = s.init := rfl
@[simp] theorem beDisable_cb : (beDisable s).cb = s.cb := rfl
@[simp] theorem beDisable_pin : (beDisable s).pin = s.pin := rfl
@[simp] theorem beDisable_curAddr : (beDisable s).curAddr = s.curAddr := rfl
@[simp] theorem beDisable_curReg : (beDisable s).curReg = s.curReg := rfl
@[simp] theorem beDisable_nextAddr : (beDisable s).nextAddr = s.nextAddr := rfl
@[simp] theorem beDisable_nextReg : (beDisable s).nextReg = s.nextReg := rfl
@[simp] theorem beDisable_cap : (beDisable s).cap = s.cap := rfl
@[simp] theorem beDisable_capN : (beDisable s).capN = s.capN := rfl
@[simp] theorem beDisable_srqPending : (beDisable s).srqPending = s.srqPending := rfl
@[simp] theorem beDisable_ring : (beDisable s).ring = s.ring := rfl
@[simp] theorem beDisable_keys : (beDisable s).keys = s.keys := rfl
@[simp] theorem beDisable_mods : (beDisable s).mods = s.mods := rfl
@[simp] theorem beDisable_cfg : (beDisable s).cfg = s.cfg := rfl
@[simp] theorem beDisable_timer : (beDisable s).timer = s.timer := rfl
@[simp] theorem beDisable_busIrq : (beDisable s).busIrq = s.busIrq := rfl
@[simp] theorem beDisable_be : (beDisable s).be = { s.be with enabled := false } := rfl
@[simp] theorem beDisable_freeCount : (beDisable s).freeCount = s.freeCount := rfl
@[simp] theorem beDisable_inputs : (beDisable s).inputs = s.inputs := rfl
@[simp] theorem beDisable_out : (beDisable s).out = s.out ++ [.disable] := rfl
@[simp] theorem beDisable_ret : (beDisable s).ret = s.ret := rfl
@[simp] theorem beDisable_status : (beDisable s).status = s.status := rfl

/-! ## beEnable -/

@[simp] theorem beEnable_init : (beEnable s).init = s.init := rfl
@[simp] theorem beEnable_cb : (beEnable s).cb = s.cb := rfl
@[simp] theorem beEnable_pin : (beEnable s).pin = s.pin := rfl
@[simp] theorem beEnable_curAddr : (beEnable s).curAddr = s.curAddr := rfl
@[simp] theorem beEnable_curReg : (beEnable s).curReg = s.curReg := rfl
@[simp] theorem beEnable_nextAddr : (beEnable s).nextAddr = s.nextAddr := rfl
@[simp] theorem beEnable_nextReg : (beEnable s).nextReg = s.nextReg := rfl
@[simp] theorem beEnable_cap : (beEnable s).cap = s.cap := rfl
@[simp] theorem beEnable_capN : (beEnable s).capN = s.capN := rfl
@[simp] theorem beEnable_srqPending : (beEnable s).srqPending = s.srqPending := rfl
@[simp] theorem beEnable_ring : (beEnable s).ring = s.ring := rfl
@[simp] theorem beEnable_keys : (beEnable s).keys = s.keys := rfl
@[simp] theorem beEnable_mods : (beEnable s).mods = s.mods := rfl
@[simp] theorem beEnable_cfg : (beEnable s).cfg = s.cfg := rfl
@[simp] theorem beEnable_timer : (beEnable s).timer = s.timer := rfl
@[simp] theorem beEnable_busIrq : (beEnable s).busIrq = s.busIrq := rfl
@[simp] theorem beEnable_be : (beEnable s).be = { s.be with enabled := true } := rfl
@[simp] theorem beEnable_freeCount : (beEnable s).freeCount = s.freeCount := rfl
@[simp] theorem beEnable_inputs : (beEnable s).inputs = s.inputs := rfl
@[simp] theorem beEnable_out : (beEnable s).out = s.out ++ [.enable] := rfl
@[simp] theorem beEnable_ret : (beEnable s).ret = s.ret := rfl
@[simp] theorem beEnable_status : (beEnable s).status = s.status := rfl

/-! ## beClearCaptures -/

@[simp] theorem beClearCaptures_init : (beClearCaptures s).init = s.init := rfl
@[simp] theorem beClearCaptures_cb : (beClearCaptures s).cb = s.cb := rfl
@[simp] theorem beClearCaptures_pin : (beClearCaptures s).pin = s.pin := rfl
@[simp] theorem beClearCaptures_curAddr : (beClearCaptures s).curAddr = s.curAddr := rfl
@[simp] theorem beClearCaptures_curReg : (beClearCaptures s).curReg = s.curReg := rfl
@[simp] theorem beClearCaptures_nextAddr : (beClearCaptures s).nextAddr = s.nextAddr := rfl
@[simp] theorem beClearCaptures_nextReg : (beClearCaptures s).nextReg = s.nextReg := rfl
@[simp] theorem beClearCaptures_cap : (beClearCaptures s).cap = s.cap := rfl
@[simp] theorem beClearCaptures_capN : (beClearCaptures s).capN = s.capN := rfl
@[simp] theorem beClearCaptures_srqPending : (beClearCaptures s).srqPending = s.srqPending := rfl
@[simp] theorem beClearCaptures_ring : (beClearCaptures s).ring = s.ring := rfl
@[simp] theorem beClearCaptures_keys : (beClearCaptures s).keys = s.keys := rfl
@[simp] theorem beClearCaptures_mods : (beClearCaptures s).mods = s.mods := rfl
@[simp] theorem beClearCaptures_cfg : (beClearCaptures s).cfg = s.cfg := rfl
@[simp] theorem beClearCaptures_timer : (beClearCaptures s).timer = s.timer := rfl
@[simp] theorem beClearCaptures_busIrq : (beClearCaptures s).busIrq = s.busIrq := rfl
@[simp] theorem beClearCaptures_be : (beClearCaptures s).be = { s.be with rxq := [], resid := [] } := rfl
@[simp] theorem beClearCaptures_freeCount : (beClearCaptures s).freeCount = s.freeCount := rfl
@[simp] theorem beClearCaptures_inputs : (beClearCaptures s).inputs = s.inputs := rfl
@[simp] theorem beClearCaptures_out : (beClearCaptures s).out = s.out ++ [.clearCaptures] := rfl
@[simp] theorem beClearCaptures_ret : (beClearCaptures s).ret = s.ret := rfl
@[simp] theorem beClearCaptures_status : (beClearCaptures s).status = s.status := rfl

/-! ## beForceLine -/

@[simp] theorem beForceLine_init (l : Level) : (beForceLine l s).init = s.init := rfl
@[simp] theorem beForceLine_cb (l : Level) : (beForceLine l s).cb = s.cb := rfl
@[simp] theorem beForceLine_pin (l : Level) : (beForceLine l s).pin = s.pin := rfl
@[simp] theorem beForceLine_curAddr (l : Level) : (beForceLine l s).curAddr = s.curAddr := rfl
@[simp] theorem beForceLine_curReg (l : Level) : (beForceLine l s).curReg = s.curReg := rfl
@[simp] theorem beForceLine_nextAddr (l : Level) : (beForceLine l s).nextAddr = s.nextAddr := rfl
@[simp] theorem beForceLine_nextReg (l : Level) : (beForceLine l s).nextReg = s.nextReg := rfl
@[simp] theorem beForceLine_cap (l : Level) : (beForceLine l s).cap = s.cap := rfl
@[simp] theorem beForceLine_capN (l : Level) : (beForceLine l s).capN = s.capN := rfl
@[simp] theorem beForceLine_srqPending (l : Level) : (beForceLine l s).srqPending = s.srqPending := rfl
@[simp] theorem beForceLine_ring (l : Level) : (beForceLine l s).ring = s.ring := rfl
@[simp] theorem beForceLine_keys (l : Level) : (beForceLine l s).keys = s.keys := rfl
@[simp] theorem beForceLine_mods (l : Level) : (beForceLine l s).mods = s.mods := rfl
@[simp] theorem beForceLine_cfg (l : Level) : (beForceLine l s).cfg = s.cfg := rfl
@[simp] theorem beForceLine_timer (l : Level) : (beForceLine l s).timer = s.timer := rfl
@[simp] theorem beForceLine_busIrq (l : Level) : (beForceLine l s).busIrq = s.busIrq := rfl
@[simp] theorem beForceLine_be (l : Level) : (beForceLine l s).be = { s.be with line := l } := rfl
@[simp] theorem beForceLine_freeCount (l : Level) : (beForceLine l s).freeCount = s.freeCount := rfl
@[simp] theorem beForceLine_inputs (l : Level) : (beForceLine l s).inputs = s.inputs := rfl
@[simp] theorem beForceLine_out (l : Level) : (beForceLine l s).out = s.out ++ [.forceLine l] := rfl
@[simp] theorem beForceLine_ret (l : Level) : (beForceLine l s).ret = s.ret := rfl
@[simp] theorem beForceLine_status (l : Level) : (beForceLine l s).status = s.status := rfl

/-! ## beWait -/

@[simp] theorem beWait_init (d : Nat) : (beWait d s).init = s.init := rfl
@[simp] theorem beWait_cb (d : Nat) : (beWait d s).cb = s.cb := rfl
@[simp] theorem beWait_pin (d : Nat) : (beWait d s).pin = s.pin := rfl
@[simp] theorem beWait_curAddr (d : Nat) : (beWait d s).curAddr = s.curAddr := rfl
@[simp] theorem beWait_curReg (d : Nat) : (beWait d s).curReg = s.curReg := rfl
@[simp] theorem beWait_nextAddr (d : Nat) : (beWait d s).nextAddr = s.nextAddr := rfl
@[simp] theorem beWait_nextReg (d : Nat) : (beWait d s).nextReg = s.nextReg := rfl
@[simp] theorem beWait_cap (d : Nat) : (beWait d s).cap = s.cap := rfl
@[simp] theorem beWait_capN (d : Nat) : (beWait d s).capN = s.capN := rfl
@[simp] theorem beWait_srqPending (d : Nat) : (beWait d s).srqPending = s.srqPending := rfl
@[simp] theorem beWait_ring (d : Nat) : (beWait d s).ring = s.ring := rfl
@[simp] theorem beWait_keys (d : Nat) : (beWait d s).keys = s.keys := rfl
@[simp] theorem beWait_mods (d : Nat) : (beWait d s).mods = s.mods := rfl
@[simp] theorem beWait_cfg (d : Nat) : (beWait d s).cfg = s.cfg := rfl
@[simp] theorem beWait_timer (d : Nat) : (beWait d s).timer = s.timer := rfl
@[simp] theorem beWait_busIrq (d : Nat) : (beWait d s).busIrq = s.busIrq := rfl
@[simp] theorem beWait_be (d : Nat) : (beWait d s).be = s.be := rfl
@[simp] theorem beWait_freeCount (d : Nat) : (beWait d s).freeCount = s.freeCount := rfl
@[simp] theorem beWait_inputs (d : Nat) : (beWait d s).inputs = s.inputs := rfl
@[simp] theorem beWait_out (d : Nat) : (beWait d s).out = s.out ++ [.wait d] := rfl
@[simp] theorem beWait_ret (d : Nat) : (beWait d s).ret = s.ret := rfl
@[simp] theorem beWait_status (d : Nat) : (beWait d s).status = s.status := rfl

/-! ## setSrqPending -/

@[simp] theorem setSrqPending_init : s.setSrqPending.init = s.init := rfl
@[simp] theorem setSrqPending_cb : s.setSrqPending.cb = s.cb := rfl
@[simp] theorem setSrqPending_pin : s.setSrqPending.pin = s.pin := rfl
@[simp] theorem setSrqPending_curAddr : s.setSrqPending.curAddr = s.curAddr := rfl
@[simp] theorem setSrqPending_curReg : s.setSrqPending.curReg = s.curReg := rfl
@[simp] theorem setSrqPending_nextAddr : s.setSrqPending.nextAddr = s.nextAddr := rfl
@[simp] theorem setSrqPending_nextReg : s.setSrqPending.nextReg = s.nextReg := rfl
@[simp] theorem setSrqPending_cap : s.setSrqPending.cap = s.cap := rfl
@[simp] theorem setSrqPending_capN : s.setSrqPending.capN = s.capN := rfl
@[simp] theorem setSrqPending_srqPending : s.setSrqPending.srqPending = true := rfl
@[simp] theorem setSrqPending_ring : s.setSrqPending.ring = s.ring := rfl
@[simp] theorem setSrqPending_keys : s.setSrqPending.keys = s.keys := rfl
@[simp] theorem setSrqPending_mods : s.setSrqPending.mods = s.mods := rfl
@[simp] theorem setSrqPending_cfg : s.setSrqPending.cfg = s.cfg := rfl
@[simp] theorem setSrqPending_timer : s.setSrqPending.timer = s.timer := rfl
@[simp] theorem setSrqPending_busIrq : s.setSrqPending.busIrq = s.busIrq := rfl
@[simp] theorem setSrqPending_be : s.setSrqPending.be = s.be := rfl
@[simp] theorem setSrqPending_freeCount : s.setSrqPending.freeCount = s.freeCount := rfl
@[simp] theorem setSrqPending_inputs : s.setSrqPending.inputs = s.inputs := rfl
@[simp] theorem setSrqPending_out : s.setSrqPending.out = s.out := rfl
@[simp] theorem setSrqPending_ret : s.setSrqPending.ret = s.ret := rfl
@[simp] theorem setSrqPending_status : s.setSrqPending.status = s.status := rfl

/-! ## clearSrqPending -/

@[simp] theorem clearSrqPending_init : s.clearSrqPending.init = s.init := rfl
@[simp] theorem clearSrqPending_cb : s.clearSrqPending.cb = s.cb := rfl
@[simp] theorem clearSrqPending_pin : s.clearSrqPending.pin = s.pin := rfl
@[simp] theorem clearSrqPending_curAddr : s.clearSrqPending.curAddr = s.curAddr := rfl
@[simp] theorem clearSrqPending_curReg : s.clearSrqPending.curReg = s.curReg := rfl
@[simp] theorem clearSrqPending_nextAddr : s.clearSrqPending.nextAddr = s.nextAddr := rfl
@[simp] theorem clearSrqPending_nextReg : s.clearSrqPending.nextReg = s.nextReg := rfl
@[simp] theorem clearSrqPending_cap : s.clearSrqPending.cap = s.cap := rfl
@[simp] theorem clearSrqPending_capN : s.clearSrqPending.capN = s.capN := rfl
@[simp] theorem clearSrqPending_srqPending : s.clearSrqPending.srqPending = false := rfl
@[simp] theorem clearSrqPending_ring : s.clearSrqPending.ring = s.ring := rfl
@[simp] theorem clearSrqPending_keys : s.clearSrqPending.keys = s.keys := rfl
@[simp] theorem clearSrqPending_mods : s.clearSrqPending.mods = s.mods := rfl
@[simp] theorem clearSrqPending_cfg : s.clearSrqPending.cfg = s.cfg := rfl
@[simp] theorem clearSrqPending_timer : s.clearSrqPending.timer = s.timer := rfl
@[simp] theorem clearSrqPending_busIrq : s.clearSrqPending.busIrq = s.busIrq := rfl
@[simp] theorem clearSrqPending_be : s.clearSrqPending.be = s.be := rfl
@[simp] theorem clearSrqPending_freeCount : s.clearSrqPending.freeCount = s.freeCount := rfl
@[simp] theorem clearSrqPending_inputs : s.clearSrqPending.inputs = s.inputs := rfl
@[simp] theorem clearSrqPending_out : s.clearSrqPending.out = s.out := rfl
@[simp] theorem clearSrqPending_ret : s.clearSrqPending.ret = s.ret := rfl
@[simp] theorem clearSrqPending_status : s.clearSrqPending.status = s.status := rfl

/-! ## consumeFlagSrq -/

@[simp] theorem consumeFlagSrq_init : s.consumeFlagSrq.init = s.init := rfl
@[simp] theorem consumeFlagSrq_cb : s.consumeFlagSrq.cb = s.cb := rfl
@[simp] theorem consumeFlagSrq_pin : s.consumeFlagSrq.pin = s.pin := rfl
@[simp] theorem consumeFlagSrq_curAddr : s.consumeFlagSrq.curAddr = s.curAddr := rfl
@[simp] theorem consumeFlagSrq_curReg : s.consumeFlagSrq.curReg = s.curReg := rfl
@[simp] theorem consumeFlagSrq_nextAddr : s.consumeFlagSrq.nextAddr = s.nextAddr := rfl
@[simp] theorem consumeFlagSrq_nextReg : s.consumeFlagSrq.nextReg = s.nextReg := rfl
@[simp] theorem consumeFlagSrq_cap : s.consumeFlagSrq.cap = s.cap := rfl
@[simp] theorem consumeFlagSrq_capN : s.consumeFlagSrq.capN = s.capN := rfl
@[simp] theorem consumeFlagSrq_srqPending : s.consumeFlagSrq.srqPending = s.srqPending := rfl
@[simp] theorem consumeFlagSrq_ring : s.consumeFlagSrq.ring = s.ring := rfl
@[simp] theorem consumeFlagSrq_keys : s.consumeFlagSrq.keys = s.keys := rfl
@[simp] theorem consumeFlagSrq_mods : s.consumeFlagSrq.mods = s.mods := rfl
@[simp] theorem consumeFlagSrq_cfg : s.consumeFlagSrq.cfg = s.cfg := rfl
@[simp] theorem consumeFlagSrq_timer : s.consumeFlagSrq.timer = s.timer := rfl
@[simp] theorem consumeFlagSrq_busIrq : s.consumeFlagSrq.busIrq = s.busIrq := rfl
@[simp] theorem consumeFlagSrq_be : s.consumeFlagSrq.be = { s.be with flagSrq := false } := rfl
@[simp] theorem consumeFlagSrq_freeCount : s.consumeFlagSrq.freeCount = s.freeCount := rfl
@[simp] theorem consumeFlagSrq_inputs : s.consumeFlagSrq.inputs = s.inputs := rfl
@[simp] theorem consumeFlagSrq_out : s.consumeFlagSrq.out = s.out := rfl
@[simp] theorem consumeFlagSrq_ret : s.consumeFlagSrq.ret = s.ret := rfl
@[simp] theorem consumeFlagSrq_status : s.consumeFlagSrq.status = s.status := rfl

/-! ## consumeFlagEor -/

@[simp] theorem consumeFlagEor_init : s.consumeFlagEor.init = s.init := rfl
@[simp] theorem consumeFlagEor_cb : s.consumeFlagEor.cb = s.cb := rfl
@[simp] theorem consumeFlagEor_pin : s.consumeFlagEor.pin = s.pin := rfl
@[simp] theorem consumeFlagEor_curAddr : s.consumeFlagEor.curAddr = s.curAddr := rfl
@[simp] theorem consumeFlagEor_curReg : s.consumeFlagEor.curReg = s.curReg := rfl
@[simp] theorem consumeFlagEor_nextAddr : s.consumeFlagEor.nextAddr = s.nextAddr := rfl
@[simp] theorem consumeFlagEor_nextReg : s.consumeFlagEor.nextReg = s.nextReg := rfl
@[simp] theorem consumeFlagEor_cap : s.consumeFlagEor.cap = s.cap := rfl
@[simp] theorem consumeFlagEor_capN : s.consumeFlagEor.capN = s.capN := rfl
@[simp] theorem consumeFlagEor_srqPending : s.consumeFlagEor.srqPending = s.srqPending := rfl
@[simp] theorem consumeFlagEor_ring : s.consumeFlagEor.ring = s.ring := rfl
@[simp] theorem consumeFlagEor_keys : s.consumeFlagEor.keys = s.keys := rfl
@[simp] theorem consumeFlagEor_mods : s.consumeFlagEor.mods = s.mods := rfl
@[simp] theorem consumeFlagEor_cfg : s.consumeFlagEor.cfg = s.cfg := rfl
@[simp] theorem consumeFlagEor_timer : s.consumeFlagEor.timer = s.timer := rfl
@[simp] theorem consumeFlagEor_busIrq : s.consumeFlagEor.busIrq = s.busIrq := rfl
@[simp] theorem consumeFlagEor_be : s.consumeFlagEor.be = { s.be with flagEor := false } := rfl
@[simp] theorem consumeFlagEor_freeCount : s.consumeFlagEor.freeCount = s.freeCount := rfl
@[simp] theorem consumeFlagEor_inputs : s.consumeFlagEor.inputs = s.inputs := rfl
@[simp] theorem consumeFlagEor_out : s.consumeFlagEor.out = s.out := rfl
@[simp] theorem consumeFlagEor_ret : s.consumeFlagEor.ret = s.ret := rfl
@[simp] theorem consumeFlagEor_status : s.consumeFlagEor.status = s.status := rfl

/-! ## clearCapture -/

@[simp] theorem clearCapture_init : s.clearCapture.init = s.init := rfl
@[simp] theorem clearCapture_cb : s.clearCapture.cb = s.cb := rfl
@[simp] theorem clearCapture_pin : s.clearCapture.pin = s.pin := rfl
@[simp] theorem clearCapture_curAddr : s.clearCapture.curAddr = s.curAddr := rfl
@[simp] theorem clearCapture_curReg : s.clearCapture.curReg = s.curReg := rfl
@[simp] theorem clearCapture_nextAddr : s.clearCapture.nextAddr = s.nextAddr := rfl
@[simp] theorem clearCapture_nextReg : s.clearCapture.nextReg = s.nextReg := rfl
@[simp] theorem clearCapture_cap : s.clearCapture.cap = s.cap := rfl
@[simp] theorem clearCapture_capN : s.clearCapture.capN = 0 := rfl
@[simp] theorem clearCapture_srqPending : s.clearCapture.srqPending = s.srqPending := rfl
@[simp] theorem clearCapture_ring : s.clearCapture.ring = s.ring := rfl
@[simp] theorem clearCapture_keys : s.clearCapture.keys = s.keys := rfl
@[simp] theorem clearCapture_mods : s.clearCapture.mods = s.mods := rfl
@[simp] theorem clearCapture_cfg : s.clearCapture.cfg = s.cfg := rfl
@[simp] theorem clearCapture_timer : s.clearCapture.timer = s.timer := rfl
@[simp] theorem clearCapture_busIrq : s.clearCapture.busIrq = s.busIrq := rfl
@[simp] theorem clearCapture_be : s.clearCapture.be = s.be := rfl
@[simp] theorem clearCapture_freeCount : s.clearCapture.freeCount = s.freeCount := rfl
@[simp] theorem clearCapture_inputs : s.clearCapture.inputs = s.inputs := rfl
@[simp] theorem clearCapture_out : s.clearCapture.out = s.out := rfl
@[simp] theorem clearCapture_ret : s.clearCapture.ret = s.ret := rfl
@[simp] theorem clearCapture_status : s.clearCapture.status = s.status := rfl

/-! ## ringPut -/

@[simp] theorem ringPut_init (b : Byte) : (ringPut b s).init = s.init := rfl
@[simp] theorem ringPut_cb (b : Byte) : (ringPut b s).cb = s.cb := rfl
@[simp] theorem ringPut_pin (b : Byte) : (ringPut b s).pin = s.pin := rfl
@[simp] theorem ringPut_curAddr (b : Byte) : (ringPut b s).curAddr = s.curAddr := rfl
@[simp] theorem ringPut_curReg (b : Byte) : (ringPut b s).curReg = s.curReg := rfl
@[simp] theorem ringPut_nextAddr (b : Byte) : (ringPut b s).nextAddr = s.nextAddr := rfl
@[simp] theorem ringPut_nextReg (b : Byte) : (ringPut b s).nextReg = s.nextReg := rfl
@[simp] theorem ringPut_cap (b : Byte) : (ringPut b s).cap = s.cap := rfl
@[simp] theorem ringPut_capN (b : Byte) : (ringPut b s).capN = s.capN := rfl
@[simp] theorem ringPut_srqPending (b : Byte) : (ringPut b s).srqPending = s.srqPending := rfl
@[simp] theorem ringPut_ring (b : Byte) : (ringPut b s).ring = ringAfterPut s.cfg.ringCap b s.ring := rfl
@[simp] theorem ringPut_keys (b : Byte) : (ringPut b s).keys = s.keys := rfl
@[simp] theorem ringPut_mods (b : Byte) : (ringPut b s).mods = s.mods := rfl
@[simp] theorem ringPut_cfg (b : Byte) : (ringPut b s).cfg = s.cfg := rfl
@[simp] theorem ringPut_timer (b : Byte) : (ringPut b s).timer = s.timer := rfl
@[simp] theorem ringPut_busIrq (b : Byte) : (ringPut b s).busIrq = s.busIrq := rfl
@[simp] theorem ringPut_be (b : Byte) : (ringPut b s).be = s.be := rfl
@[simp] theorem ringPut_freeCount (b : Byte) : (ringPut b s).freeCount = s.freeCount := rfl
@[simp] theorem ringPut_inputs (b : Byte) : (ringPut b s).inputs = s.inputs := rfl
@[simp] theorem ringPut_out (b : Byte) : (ringPut b s).out = s.out := rfl
@[simp] theorem ringPut_ret (b : Byte) : (ringPut b s).ret = s.ret := rfl
@[simp] theorem ringPut_status (b : Byte) : (ringPut b s).status = s.status := rfl

/-! ## changeKey -/

@[simp] theorem changeKey_init (sc : Scancode) (rel : Bool) : (changeKey sc rel s).init = s.init := rfl
@[simp] theorem changeKey_cb (sc : Scancode) (rel : Bool) : (changeKey sc rel s).cb = s.cb := rfl
@[simp] theorem changeKey_pin (sc : Scancode) (rel : Bool) : (changeKey sc rel s).pin = s.pin := rfl
@[simp] theorem changeKey_curAddr (sc : Scancode) (rel : Bool) : (changeKey sc rel s).curAddr = s.curAddr := rfl
@[simp] theorem changeKey_curReg (sc : Scancode) (rel : Bool) : (changeKey sc rel s).curReg = s.curReg := rfl
@[simp] theorem changeKey_nextAddr (sc : Scancode) (rel : Bool) : (changeKey sc rel s).nextAddr = s.nextAddr := rfl
@[simp] theorem changeKey_nextReg (sc : Scancode) (rel : Bool) : (changeKey sc rel s).nextReg = s.nextReg := rfl
@[simp] theorem changeKey_cap (sc : Scancode) (rel : Bool) : (changeKey sc rel s).cap = s.cap := rfl
@[simp] theorem changeKey_capN (sc : Scancode) (rel : Bool) : (changeKey sc rel s).capN = s.capN := rfl
@[simp] theorem changeKey_srqPending (sc : Scancode) (rel : Bool) : (changeKey sc rel s).srqPending = s.srqPending := rfl
@[simp] theorem changeKey_ring (sc : Scancode) (rel : Bool) : (changeKey sc rel s).ring = s.ring := rfl
@[simp] theorem changeKey_keys (sc : Scancode) (rel : Bool) : (changeKey sc rel s).keys =
    keysAfterCode s.cfg.noKey (translate s.cfg sc) rel s.keys := rfl
@[simp] theorem changeKey_mods (sc : Scancode) (rel : Bool) : (changeKey sc rel s).mods = s.mods := rfl
@[simp] theorem changeKey_cfg (sc : Scancode) (rel : Bool) : (changeKey sc rel s).cfg = s.cfg := rfl
@[simp] theorem changeKey_timer (sc : Scancode) (rel : Bool) : (changeKey sc rel s).timer = s.timer := rfl
@[simp] theorem changeKey_busIrq (sc : Scancode) (rel : Bool) : (changeKey sc rel s).busIrq = s.busIrq := rfl
@[simp] theorem changeKey_be (sc : Scancode) (rel : Bool) : (changeKey sc rel s).be = s.be := rfl
@[simp] theorem changeKey_freeCount (sc : Scancode) (rel : Bool) : (changeKey sc rel s).freeCount = s.freeCount := rfl
@[simp] theorem changeKey_inputs (sc : Scancode) (rel : Bool) : (changeKey sc rel s).inputs = s.inputs := rfl
@[simp] theorem changeKey_out (sc : Scancode) (rel : Bool) : (changeKey sc rel s).out = s.out := rfl
@[simp] theorem changeKey_ret (sc : Scancode) (rel : Bool) : (changeKey sc rel s).ret = s.ret := rfl
@[simp] theorem changeKey_status (sc : Scancode) (rel : Bool) : (changeKey sc rel s).status = s.status := rfl

/-! ## changeMod -/

@[simp] theorem changeMod_init (sc : Scancode) (rel : Bool) : (changeMod sc rel s).init = s.init := rfl
@[simp] theorem changeMod_cb (sc : Scancode) (rel : Bool) : (changeMod sc rel s).cb = s.cb := rfl
@[simp] theorem changeMod_pin (sc : Scancode) (rel : Bool) : (changeMod sc rel s).pin = s.pin := rfl
@[simp] theorem changeMod_curAddr (sc : Scancode) (rel : Bool) : (changeMod sc rel s).curAddr = s.curAddr := rfl
@[simp] theorem changeMod_curReg (sc : Scancode) (rel : Bool) : (changeMod sc rel s).curReg = s.curReg := rfl
@[simp] theorem changeMod_nextAddr (sc : Scancode) (rel : Bool) : (changeMod sc rel s).nextAddr = s.nextAddr := rfl
@[simp] theorem changeMod_nextReg (sc : Scancode) (rel : Bool) : (changeMod sc rel s).nextReg = s.nextReg := rfl
@[simp] theorem changeMod_cap (sc : Scancode) (rel : Bool) : (changeMod sc rel s).cap = s.cap := rfl
@[simp] theorem changeMod_capN (sc : Scancode) (rel : Bool) : (changeMod sc rel s).capN = s.capN := rfl
@[simp] theorem changeMod_srqPending (sc : Scancode) (rel : Bool) :
    (changeMod sc rel s).srqPending = s.srqPending := rfl
@[simp] theorem changeMod_ring (sc : Scancode) (rel : Bool) : (changeMod sc rel s).ring = s.ring := rfl
@[simp] theorem changeMod_keys (sc : Scancode) (rel : Bool) : (changeMod sc rel s).keys = s.keys := rfl
@[simp] theorem changeMod_mods (sc : Scancode) (rel : Bool) :
    (changeMod sc rel s).mods = modsAfter s.cfg sc rel s.mods := rfl
@[simp] theorem changeMod_cfg (sc : Scancode) (rel : Bool) : (changeMod sc rel s).cfg = s.cfg := rfl
@[simp] theorem changeMod_timer (sc : Scancode) (rel : Bool) : (changeMod sc rel s).timer = s.timer := rfl
@[simp] theorem changeMod_busIrq (sc : Scancode) (rel : Bool) : (changeMod sc rel s).busIrq = s.busIrq := rfl
@[simp] theorem changeMod_be (sc : Scancode) (rel : Bool) : (changeMod sc rel s).be = s.be := rfl
@[simp] theorem changeMod_freeCount (sc : Scancode) (rel : Bool) : (changeMod sc rel s).freeCount = s.freeCount := rfl
@[simp] theorem changeMod_inputs (sc : Scancode) (rel : Bool) : (changeMod sc rel s).inputs = s.inputs := rfl
@[simp] theorem changeMod_out (sc : Scancode) (rel : Bool) : (changeMod sc rel s).out = s.out := rfl
@[simp] theorem changeMod_ret (sc : Scancode) (rel : Bool) : (changeMod sc rel s).ret = s.ret := rfl
@[simp] theorem changeMod_status (sc : Scancode) (rel : Bool) : (changeMod sc rel s).status = s.status := rfl

/-! ## withInput -/

@[simp] theorem withInput_init (p : Packet) : (s.withInput p).init = s.init := rfl
@[simp] theorem withInput_cb (p : Packet) : (s.withInput p).cb = s.cb := rfl
@[simp] theorem withInput_pin (p : Packet) : (s.withInput p).pin = s.pin := rfl
@[simp] theorem withInput_curAddr (p : Packet) : (s.withInput p).curAddr = s.curAddr := rfl
@[simp] theorem withInput_curReg (p : Packet) : (s.withInput p).curReg = s.curReg := rfl
@[simp] theorem withInput_nextAddr (p : Packet) : (s.withInput p).nextAddr = s.nextAddr := rfl
@[simp] theorem withInput_nextReg (p : Packet) : (s.withInput p).nextReg = s.nextReg := rfl
@[simp] theorem withInput_cap (p : Packet) : (s.withInput p).cap = s.cap := rfl
@[simp] theorem withInput_capN (p : Packet) : (s.withInput p).capN = s.capN := rfl
@[simp] theorem withInput_srqPending (p : Packet) : (s.withInput p).srqPending = s.srqPending := rfl
@[simp] theorem withInput_ring (p : Packet) : (s.withInput p).ring = s.ring := rfl
@[simp] theorem withInput_keys (p : Packet) : (s.withInput p).keys = s.keys := rfl
@[simp] theorem withInput_mods (p : Packet) : (s.withInput p).mods = s.mods := rfl
@[simp] theorem withInput_cfg (p : Packet) : (s.withInput p).cfg = s.cfg := rfl
@[simp] theorem withInput_timer (p : Packet) : (s.withInput p).timer = s.timer := rfl
@[simp] theorem withInput_busIrq (p : Packet) : (s.withInput p).busIrq = s.busIrq := rfl
@[simp] theorem withInput_be (p : Packet) : (s.withInput p).be = s.be := rfl
@[simp] theorem withInput_freeCount (p : Packet) : (s.withInput p).freeCount = s.freeCount := rfl
@[simp] theorem withInput_inputs (p : Packet) : (s.withInput p).inputs = p :: s.inputs := rfl
@[simp] theorem withInput_out (p : Packet) : (s.withInput p).out = s.out := rfl
@[simp] theorem withInput_ret (p : Packet) : (s.withInput p).ret = s.ret := rfl
@[simp] theorem withInput_status (p : Packet) : (s.withInput p).status = s.status := rfl

/-! ## loadCapture -/

@[simp] theorem loadCapture_init (ws : List Word) : (s.loadCapture ws).init = s.init := rfl
@[simp] theorem loadCapture_cb (ws : List Word) : (s.loadCapture ws).cb = s.cb := rfl
@[simp] theorem loadCapture_pin (ws : List Word) : (s.loadCapture ws).pin = s.pin := rfl
@[simp] theorem loadCapture_curAddr (ws : List Word) : (s.loadCapture ws).curAddr = s.curAddr := rfl
@[simp] theorem loadCapture_curReg (ws : List Word) : (s.loadCapture ws).curReg = s.curReg := rfl
@[simp] theorem loadCapture_nextAddr (ws : List Word) : (s.loadCapture ws).nextAddr = s.nextAddr := rfl
@[simp] theorem loadCapture_nextReg (ws : List Word) : (s.loadCapture ws).nextReg = s.nextReg := rfl
@[simp] theorem loadCapture_srqPending (ws : List Word) : (s.loadCapture ws).srqPending = s.srqPending := rfl
@[simp] theorem loadCapture_ring (ws : List Word) : (s.loadCapture ws).ring = s.ring := rfl
@[simp] theorem loadCapture_keys (ws : List Word) : (s.loadCapture ws).keys = s.keys := rfl
@[simp] theorem loadCapture_mods (ws : List Word) : (s.loadCapture ws).mods = s.mods := rfl
@[simp] theorem loadCapture_cfg (ws : List Word) : (s.loadCapture ws).cfg = s.cfg := rfl
@[simp] theorem loadCapture_timer (ws : List Word) : (s.loadCapture ws).timer = s.timer := rfl
@[simp] theorem loadCapture_busIrq (ws : List Word) : (s.loadCapture ws).busIrq = s.busIrq := rfl
@[simp] theorem loadCapture_be (ws : List Word) : (s.loadCapture ws).be = s.be := rfl
@[simp] theorem loadCapture_freeCount (ws : List Word) : (s.loadCapture ws).freeCount = s.freeCount + 1 := rfl
@[simp] theorem loadCapture_inputs (ws : List Word) : (s.loadCapture ws).inputs = s.inputs := rfl
@[simp] theorem loadCapture_out (ws : List Word) : (s.loadCapture ws).out = s.out := rfl
@[simp] theorem loadCapture_ret (ws : List Word) : (s.loadCapture ws).ret = s.ret := rfl
@[simp] theorem loadCapture_status (ws : List Word) : (s.loadCapture ws).status = s.status := rfl

/-! ## decodeCapture -/

@[simp] theorem decodeCapture_init : s.decodeCapture.2.init = s.init := rfl
@[simp] theorem decodeCapture_cb : s.decodeCapture.2.cb = s.cb := rfl
@[simp] theorem decodeCapture_pin : s.decodeCapture.2.pin = s.pin := rfl
@[simp] theorem decodeCapture_curAddr : s.decodeCapture.2.curAddr = s.curAddr := rfl
@[simp] theorem decodeCapture_curReg : s.decodeCapture.2.curReg = s.curReg := rfl
@[simp] theorem decodeCapture_nextAddr : s.decodeCapture.2.nextAddr = s.nextAddr := rfl
@[simp] theorem decodeCapture_nextReg : s.decodeCapture.2.nextReg = s.nextReg := rfl
@[simp] theorem decodeCapture_capN : s.decodeCapture.2.capN = s.capN := rfl
@[simp] theorem decodeCapture_srqPending : s.decodeCapture.2.srqPending = s.srqPending := rfl
@[simp] theorem decodeCapture_ring : s.decodeCapture.2.ring = s.ring := rfl
@[simp] theorem decodeCapture_keys : s.decodeCapture.2.keys = s.keys := rfl
@[simp] theorem decodeCapture_mods : s.decodeCapture.2.mods = s.mods := rfl
@[simp] theorem decodeCapture_cfg : s.decodeCapture.2.cfg = s.cfg := rfl
@[simp] theorem decodeCapture_timer : s.decodeCapture.2.timer = s.timer := rfl
@[simp] theorem decodeCapture_busIrq : s.decodeCapture.2.busIrq = s.busIrq := rfl
@[simp] theorem decodeCapture_be : s.decodeCapture.2.be = s.be := rfl
@[simp] theorem decodeCapture_freeCount : s.decodeCapture.2.freeCount = s.freeCount := rfl
@[simp] theorem decodeCapture_inputs : s.decodeCapture.2.inputs = s.inputs := rfl
@[simp] theorem decodeCapture_out : s.decodeCapture.2.out = s.out := rfl
@[simp] theorem decodeCapture_ret : s.decodeCapture.2.ret = s.ret := rfl
@[simp] theorem decodeCapture_status : s.decodeCapture.2.status = s.status := rfl

/-! ## initialise -/

@[simp] theorem initialise_init (p : Pin) (cb : Callback) : (s.initialise p cb).init = true := rfl
@[simp] theorem initialise_cb (p : Pin) (cb : Callback) : (s.initialise p cb).cb = cb := rfl
@[simp] theorem initialise_pin (p : Pin) (cb : Callback) : (s.initialise p cb).pin = p := rfl
@[simp] theorem initialise_curAddr (p : Pin) (cb : Callback) : (s.initialise p cb).curAddr = s.cfg.initAddr := rfl
@[simp] theorem initialise_curReg (p : Pin) (cb : Callback) : (s.initialise p cb).curReg = 0 := rfl
@[simp] theorem initialise_nextAddr (p : Pin) (cb : Callback) : (s.initialise p cb).nextAddr = s.cfg.initAddr := rfl
@[simp] theorem initialise_nextReg (p : Pin) (cb : Callback) : (s.initialise p cb).nextReg = 0 := rfl
@[simp] theorem initialise_cap (p : Pin) (cb : Callback) : (s.initialise p cb).cap = s.cap := rfl
@[simp] theorem initialise_capN (p : Pin) (cb : Callback) : (s.initialise p cb).capN = 0 := rfl
@[simp] theorem initialise_srqPending (p : Pin) (cb : Callback) : (s.initialise p cb).srqPending = false := rfl
@[simp] theorem initialise_ring (p : Pin) (cb : Callback) : (s.initialise p cb).ring = [] := rfl
@[simp] theorem initialise_keys (p : Pin) (cb : Callback) :
    (s.initialise p cb).keys = Vector.replicate 6 s.cfg.noKey := rfl
@[simp] theorem initialise_mods (p : Pin) (cb : Callback) : (s.initialise p cb).mods = ModFlags.none := rfl
@[simp] theorem initialise_cfg (p : Pin) (cb : Callback) : (s.initialise p cb).cfg = s.cfg := rfl
@[simp] theorem initialise_timer (p : Pin) (cb : Callback) :
    (s.initialise p cb).timer = .armed s.cfg.tickPeriod := rfl
@[simp] theorem initialise_busIrq (p : Pin) (cb : Callback) : (s.initialise p cb).busIrq = true := rfl
@[simp] theorem initialise_be (p : Pin) (cb : Callback) :
    (s.initialise p cb).be = { s.be with txq := [], flagSrq := false, flagEor := false } := rfl
@[simp] theorem initialise_freeCount (p : Pin) (cb : Callback) : (s.initialise p cb).freeCount = s.freeCount := rfl
@[simp] theorem initialise_inputs (p : Pin) (cb : Callback) : (s.initialise p cb).inputs = s.inputs := rfl
@[simp] theorem initialise_out (p : Pin) (cb : Callback) : (s.initialise p cb).out = s.out := rfl
@[simp] theorem initialise_ret (p : Pin) (cb : Callback) : (s.initialise p cb).ret = s.ret := rfl
@[simp] theorem initialise_status (p : Pin) (cb : Callback) : (s.initialise p cb).status = s.status := rfl

end Sys2Proof.Machine
end

