-- ==== Sys2Proof/Laws/Ops.lean ====
section
/-! SUPPORT. For each shared operation, once, everything it can do: the frames of a step (host operation, handler,
function), the loops as closed forms, and the pieces of a step as one update of the state. -/

namespace Sys2Proof.Machine

variable (s : State)

/-! ## The three frames of a step -/

/-- A host operation answers a next state: an error with nothing changed, or its body. -/
theorem hostOp_cases {s : State} {checks : List (Option ErrorStatus)} {body : State → State} {t : State}
    (h : hostOp checks body s = .next t) :
    (∃ e, checks.findSome? id = some e ∧ t = raise e s) ∨
      (checks.findSome? id = none ∧ t = body s.clearOutputs) := by
  unfold hostOp at h
  split at h <;> rename_i hc <;> cases h
  · exact .inl ⟨_, hc, rfl⟩
  · exact .inr ⟨hc, rfl⟩

/-- A handler answers a next state only while `INIT = 1`, and then its body. -/
theorem handler_cases {s : State} {body : State → State} {t : State} (h : handler body s = .next t) :
    s.init = true ∧ t = body s.clearOutputs := by
  unfold handler at h
  split at h <;> rename_i hi <;> cases h
  exact ⟨hi, rfl⟩

theorem handler_init {body : State → State} (h : s.init = true) :
    handler body s = .next (body s.clearOutputs) := if_pos h

theorem handler_uninit {body : State → State} (h : s.init = false) :
    handler body s = .refused .eventNotEnabled := if_neg (by simp [h])

/-- A function of the table always answers its body. -/
theorem function_eq (body : State → State) : function body s = .next (body s.clearOutputs) := rfl

@[simp] theorem checkInit_init {s : State} (h : s.init = true) : checkInit s = none := by simp [checkInit, h]
@[simp] theorem checkInit_uninit {s : State} (h : s.init = false) : checkInit s = some .uninit := by
  simp [checkInit, h]
@[simp] theorem checkNotInit_init {s : State} (h : s.init = true) : checkNotInit s = some .reinit := by
  simp [checkNotInit, h]
@[simp] theorem checkNotInit_uninit {s : State} (h : s.init = false) : checkNotInit s = none := by
  simp [checkNotInit, h]

/-! ## Loops over the backend port -/

theorem bePushAll_eq (ws : List Word) : bePushAll ws s =
    { s with be := { s.be with txq := s.be.txq ++ ws }, out := s.out ++ ws.map .push } := by
  induction ws generalizing s with
  | nil => simp [bePushAll]
  | cons w ws ih => simp [bePushAll, ih, bePush, State.emit]

/-- With as many rounds as `RXQ` holds words, the drain returns them all, in order. -/
theorem drain_eq : drain s =
    (s.be.rxq, { s with be := { s.be with rxq := [] }, out := s.out ++ s.be.rxq.map .pop }) := by
  suffices h : ∀ (ws : List Word) (s : State), s.be.rxq = ws → drainLoop ws.length s =
      (ws, { s with be := { s.be with rxq := [] }, out := s.out ++ ws.map .pop }) from h _ s rfl
  intro ws
  induction ws with
  | nil => intro s h; obtain ⟨⟩ := s; simp_all [drainLoop]; rw [← h]
  | cons w ws ih => intro s h; simp [drainLoop, bePop, h, ih, State.emit]

/-- The completion sequence returns the words the environment gave and leaves `RXQ` and `RESID` empty. -/
theorem completePoll_eq (ws : List Word) : completePoll ws s =
    (ws, { s with be := { s.be with rxq := [], resid := [], pc := 0 },
                  out := s.out ++ .forceFlush :: ws.map .pop ++ [.restart] }) := by
  simp [completePoll, drain_eq, beForceFlush, beRestart, State.emit]

/-! ## Ring, callback and dispatch -/

theorem ringPutAll_eq (bs : List Byte) : ringPutAll bs s =
    { s with ring := bs.foldl (fun r b => ringAfterPut s.cfg.ringCap b r) s.ring } := by
  induction bs generalizing s with
  | nil => rfl
  | cons b bs ih => simp [ringPutAll, ih, ringPut]

/-- The keyboard sink changes nothing but the ring. -/
theorem kbdSink_ring (a r : Byte) (p : List Byte) :
    kbdSink a r p s = { s with ring := (kbdSink a r p s).ring } := by
  unfold kbdSink
  split
  · simp [ringPutAll_eq]
  · rfl

/-- A callback changes nothing but the ring. -/
theorem runCallback_ring (a r : Byte) (p : List Byte) :
    runCallback a r p s = { s with ring := (runCallback a r p s).ring } := by
  unfold runCallback
  split
  · exact kbdSink_ring s a r p
  · rfl

/-- A call of `onData` emits one callback and changes nothing else but the ring. -/
theorem callOnData_eq (p : List Byte) : callOnData p s =
    { s with ring := (callOnData p s).ring
             out := s.out ++ [.onData (s.curAddr.setWidth 8) (s.curReg.setWidth 8) p p.length] } := by
  unfold callOnData
  rw [runCallback_ring]
  rfl

/-- The dispatch either does nothing, or is one call of `onData`. -/
theorem dispatch_cases (res : FrameResult) : dispatch res s = s ∨ ∃ p, dispatch res s = callOnData p s := by
  unfold dispatch
  split
  · split
    · exact .inl rfl
    · exact .inr ⟨_, rfl⟩
  · exact .inr ⟨_, rfl⟩
  · split
    · exact .inr ⟨_, rfl⟩
    · exact .inl rfl

/-- The dispatch changes nothing but the ring and the outputs. -/
theorem dispatch_frame (res : FrameResult) : dispatch res s =
    { s with ring := (dispatch res s).ring, out := (dispatch res s).out } := by
  rcases dispatch_cases s res with h | ⟨p, h⟩
  · rw [h]
  · rw [h, callOnData_eq]

/-! ## The capture buffer -/

/-- The in-place decode changes nothing but `CAP`. -/
theorem decodeCapture_eq : s.decodeCapture =
    ((decodeBytes s.captured).1, { s with cap := s.decodeCapture.2.cap }) := rfl

/-- A given `UNPACK` answers what its graph says first for the drained words, else the free function. -/
theorem unpackGiven_cases (graph : List (List Word × Unpacked)) (rest : Nat) (ws : List Word) :
    (∃ u, (ws, u) ∈ graph ∧ unpackGiven graph rest ws = u) ∨
      ((∀ u, (ws, u) ∉ graph) ∧ unpackGiven graph rest ws = Config.unpackFree rest ws) := by
  unfold unpackGiven
  split
  · rename_i e he
    obtain ⟨v, u⟩ := e
    obtain rfl : v = ws := by simpa using List.find?_some he
    exact .inl ⟨u, List.mem_of_find?_eq_some he, rfl⟩
  · rename_i he
    exact .inr ⟨fun u hu => by simpa using List.find?_eq_none.mp he _ hu, rfl⟩

/-- An unpack keeps at most nine bytes. -/
theorem unpackBytes_length (u : UnpackPolicy) (ws : List Word) : (unpackBytes u ws).length ≤ capBytes := by
  cases u with
  | keepAll => exact List.length_take_le _ _
  | given graph rest => simp [unpackBytes, unpackedBytes, capBytes]

/-- After an unpack the captured bytes are exactly the unpacked ones, whatever the free values. -/
theorem loadCapture_captured (ws : List Word) :
    (s.loadCapture ws).captured = unpackBytes s.cfg.unpack ws := by
  have h := unpackBytes_length s.cfg.unpack ws
  have h9 : capBytes = 9 := rfl
  apply List.ext_getElem
  · simp [State.captured, State.loadCapture]; omega
  · intro i h1 h2
    simp [State.captured, State.loadCapture, List.getElem_take, List.getD_eq_getElem?_getD, h2]

/-! ## The decoder -/

section Keys

variable {K : Type} [DecidableEq K]

/-- A key code does nothing, or closes its gap, or is inserted. -/
theorem keysAfterCode_cases (noKey k : K) (rel : Bool) (ks : Vector K 6) :
    (k = noKey ∧ keysAfterCode noKey k rel ks = ks) ∨
      (k ≠ noKey ∧ rel = true ∧ keysAfterCode noKey k rel ks = keysAfterUp noKey k ks) ∨
      (k ≠ noKey ∧ rel = false ∧ keysAfterCode noKey k rel ks = keysAfterDown k ks) := by
  by_cases h : k = noKey
  · exact .inl ⟨h, if_pos h⟩
  · cases rel <;> simp [keysAfterCode, h]

/-- A key-down brings in no code but its own. -/
theorem mem_of_mem_keysAfterDown {k x : K} {ks : Vector K 6} (h : x ∈ (keysAfterDown k ks).toList) :
    x = k ∨ x ∈ ks.toList := by
  unfold keysAfterDown at h
  split at h
  · exact .inr h
  · simp at h ⊢
    rcases h with h | h | h | h | h | h <;> simp_all

/-- A key-up brings in no code but NOKEY. -/
theorem mem_of_mem_keysAfterUp {noKey k x : K} {ks : Vector K 6} (h : x ∈ (keysAfterUp noKey k ks).toList) :
    x = noKey ∨ x ∈ ks.toList := by
  unfold keysAfterUp at h
  split at h
  · simp at h ⊢
    obtain ⟨j, rfl⟩ := h
    split_ifs <;> simp
  · exact .inr h

end Keys

/-- A scancode byte changes nothing but `KEYS` and the modifier flags. -/
theorem decodeScancode_eq (b : Byte) : decodeScancode b s =
    { s with keys := (decodeScancode b s).keys, mods := (decodeScancode b s).mods } := by
  unfold decodeScancode
  split
  · rfl
  · rfl

/-- A modifier byte writes the flag of each modifier whose scancode it is, and only those. -/
theorem modsAfter_eq (c : Params) (sc : Scancode) (rel : Bool) (m : ModFlags) : modsAfter c sc rel m =
    { m with
      lGui := if sc = c.scLGui then !rel else m.lGui
      lShift := if sc = c.scLShift then !rel else m.lShift
      rShift := if sc = c.scRShift then !rel else m.rShift
      lCtrl := if sc = c.scLCtrl then !rel else m.lCtrl
      lAlt := if sc = c.scLAlt then !rel else m.lAlt } := by
  simp only [modsAfter]
  split_ifs <;> rfl

end Sys2Proof.Machine
end

