-- ==== Sys2Proof/Laws/Exec.lean ====
section
/-! SUPPORT. Said once for every operation: what its step can do. `exec_cases` turns an answer `next t` into a raised
status or the operation's effect, written as one update of the state. -/

namespace Sys2Proof.Machine

/-- What a dispatch inside a step does to the state `s`: perhaps one callback, and the ring. -/
structure Dispatched (s : State) (os : List Output) (ring : List Byte) : Prop where
  callbacks : os = [] ∨ ∃ a r p n, os = [.onData a r p n]
  silent : os = [] → ring = s.ring
  bounded : 1 ≤ s.cfg.ringCap → s.ring.length ≤ s.cfg.ringCap → ring.length ≤ s.cfg.ringCap

theorem ringAfterPut_length {cap : Nat} {b : Byte} {ring : List Byte} (h1 : 1 ≤ cap) (h : ring.length ≤ cap) :
    (ringAfterPut cap b ring).length ≤ cap := by
  unfold ringAfterPut
  split <;> simp <;> omega

theorem ringPutAll_length (bs : List Byte) (s : State) (h1 : 1 ≤ s.cfg.ringCap)
    (h : s.ring.length ≤ s.cfg.ringCap) : (ringPutAll bs s).ring.length ≤ s.cfg.ringCap := by
  induction bs generalizing s with
  | nil => exact h
  | cons b bs ih => exact ih (ringPut b s) h1 (ringAfterPut_length h1 h)

theorem kbdSink_length (a r : Byte) (p : List Byte) (s : State) (h1 : 1 ≤ s.cfg.ringCap)
    (h : s.ring.length ≤ s.cfg.ringCap) : (kbdSink a r p s).ring.length ≤ s.cfg.ringCap := by
  unfold kbdSink
  split
  · exact ringPutAll_length p s h1 h
  · exact h

theorem callOnData_length (p : List Byte) (s : State) (h1 : 1 ≤ s.cfg.ringCap)
    (h : s.ring.length ≤ s.cfg.ringCap) : (callOnData p s).ring.length ≤ s.cfg.ringCap := by
  simp only [callOnData, runCallback]
  split
  · exact kbdSink_length _ _ p (s.emit _) h1 h
  · exact h

/-- The dispatch as one update, with what it emits and what it does to the ring. -/
theorem dispatch_eq (res : FrameResult) (s : State) : ∃ os ring, Dispatched s os ring ∧
    dispatch res s = { s with ring := ring, out := s.out ++ os } := by
  rcases dispatch_cases s res with h | ⟨p, h⟩
  · exact ⟨[], s.ring, ⟨.inl rfl, fun _ => rfl, fun _ h => h⟩, by rw [h]; simp⟩
  · exact ⟨[.onData (s.curAddr.setWidth 8) (s.curReg.setWidth 8) p p.length], (callOnData p s).ring,
      ⟨.inr ⟨_, _, _, _, rfl⟩, by simp, callOnData_length p s⟩, h.trans (callOnData_eq s p)⟩

/-- The effect of an operation that raises nothing, as one update of the state before it. -/
def Effect (s t : State) : Instr → Prop
  | .cmdReset => ∃ r, t = s.clearOutputs.returning r
  | .cmdFlush _ => ∃ r, t = s.clearOutputs.returning r
  | .cmdTalk _ _ => ∃ r, t = s.clearOutputs.returning r
  | .cmdListen _ _ => ∃ r, t = s.clearOutputs.returning r
  | .encListen _ => ∃ r, t = s.clearOutputs.returning r
  | .capUnpack _ => ∃ r, t = s.clearOutputs.returning r
  | .advance _ => ∃ r, t = s.clearOutputs.returning r
  | .decFrame => ∃ cap r, t = { s.clearOutputs with cap := cap, ret := r }
  | .init p cb => s.init = false ∧ t = (beEnable (beClearCaptures s.clearOutputs)).initialise p cb
  | .reset => s.init = true ∧ t = { s.clearOutputs with
      capN := 0, be := { s.be with rxq := [], resid := [], enabled := true, line := .high }
      out := [.disable, .forceLine .low, .wait s.cfg.resetLowMin, .forceLine .high, .clearCaptures, .enable] }
  | .flush _ => s.init = true ∧ ∃ w, t = { s.clearOutputs with
      capN := 0, be := { s.be with txq := s.be.txq ++ [w], rxq := [], resid := [], pc := 0, enabled := true }
      out := [.disable, .restart, .clearCaptures, .enable, .push w] }
  | .talk a r => s.init = true ∧ 2 ≤ a ∧ a ≤ 15 ∧ r ≤ 3 ∧
      t = { s.clearOutputs with nextAddr := BitVec.ofNat 4 a, nextReg := BitVec.ofNat 2 r }
  | .listen _ _ _ => s.init = true ∧ ∃ ws, t = { s.clearOutputs with
      be := { s.be with txq := s.be.txq ++ ws }, out := ws.map .push }
  | .srqPend => s.init = true ∧ t = { s.clearOutputs with srqPending := false, ret := .bool s.srqPending }
  | .tick => s.init = true ∧ t = { s.clearOutputs with
      curAddr := s.nextAddr, curReg := s.nextReg, nextReg := 0
      be := { s.be with txq := s.be.txq ++ [cmdTalkWord s.nextAddr s.nextReg] }
      out := [.push (cmdTalkWord s.nextAddr s.nextReg)] }
  | .srq ws => s.init = true ∧ t = { s.clearOutputs with
      nextAddr := advanceAddr s.nextAddr, nextReg := 0, capN := 0, srqPending := true
      be := { s.be with rxq := [], resid := [], pc := 0, flagSrq := false }
      out := .forceFlush :: ws.map .pop ++ [.restart] }
  | .eor ws => s.init = true ∧ ∃ cap n os ring, Dispatched s os ring ∧ t = { s.clearOutputs with
      cap := cap, capN := n, ring := ring, freeCount := s.freeCount + 1
      be := { s.be with rxq := [], resid := [], pc := 0, flagEor := false }
      out := .forceFlush :: ws.map .pop ++ .restart :: os }
  | .onData _ => ∃ os ring, Dispatched s os ring ∧ t = { s.clearOutputs with ring := ring, out := os }
  | .kbdSink a r p n => n ≤ p.length ∧ t = { s.clearOutputs with ring := (kbdSink a r (p.take n) s.clearOutputs).ring }
  | .ringPut b => t = ringPut b s.clearOutputs
  | .consume => s.init = true ∧ ((s.ring = [] ∧ t = s.clearOutputs) ∨
      ∃ b rest, s.ring = b :: rest ∧ t = decodeScancode b { s.clearOutputs with ring := rest })
  | .scByte b => t = decodeScancode b s.clearOutputs
  | .scMod sc rel => t = changeMod sc rel s.clearOutputs
  | .keyDown sc => t = changeKey sc false s.clearOutputs
  | .keyUp sc => t = changeKey sc true s.clearOutputs
  | .keyStateRead => s.init = true ∧ t = s.clearOutputs.returning (.keyState s.keys s.mods)

theorem checkInit_none {s : State} (h : checkInit s = none) : s.init = true := by
  cases hi : s.init <;> simp [checkInit, hi] at h ⊢

theorem checkAddress_none {a : Nat} (h : checkAddress a = none) : 2 ≤ a ∧ a ≤ 15 := by
  simp [checkAddress] at h; omega

theorem checkRegister_none {r : Nat} (h : checkRegister r = none) : r ≤ 3 := by
  simpa [checkRegister] using h

/-- The state after the completion sequence of an end of response that drained `ws`, `FLAG_EOR` consumed. -/
def pollCompleted (ws : List Word) (s : State) : State :=
  { s.clearOutputs with
    be := { s.be with rxq := [], resid := [], pc := 0, flagEor := false }
    out := .forceFlush :: ws.map .pop ++ [.restart] }

/-- The end of response: unpack, decode in place, dispatch, after the completion sequence. -/
theorem execEor_eq (s : State) (ws : List Word) (h : s.init = true) : execEor ws s =
    .next (dispatch ((pollCompleted ws s).loadCapture ws).decodeCapture.1
      ((pollCompleted ws s).loadCapture ws).decodeCapture.2) := by
  simp [execEor, handler, h, completePoll_eq, State.consumeFlagEor, pollCompleted]

/-- Every next state is a raised status or the effect of the operation. -/
theorem exec_cases {i : Instr} {s t : State} (h : exec i s = .next t) :
    (∃ e, t = raise e s) ∨ (Effect s t i ∧ t.status = none) := by
  cases i with
  | cmdReset => cases h; exact .inr ⟨⟨_, rfl⟩, rfl⟩
  | cmdFlush a => cases h; exact .inr ⟨⟨_, rfl⟩, rfl⟩
  | cmdTalk a r => cases h; exact .inr ⟨⟨_, rfl⟩, rfl⟩
  | cmdListen a r => cases h; exact .inr ⟨⟨_, rfl⟩, rfl⟩
  | advance a => cases h; exact .inr ⟨⟨_, rfl⟩, rfl⟩
  | capUnpack ws => cases h; exact .inr ⟨⟨_, rfl⟩, rfl⟩
  | encListen p =>
    simp only [exec, execEncListen] at h
    split at h
    · cases h; exact .inr ⟨⟨_, rfl⟩, rfl⟩
    · cases h
  | decFrame => cases h; exact .inr ⟨⟨_, _, rfl⟩, rfl⟩
  | init p cb =>
    change execInit p cb s = _ at h; unfold execInit at h
    rcases hostOp_cases h with ⟨e, -, rfl⟩ | ⟨hc, rfl⟩
    · exact .inl ⟨e, rfl⟩
    · refine .inr ⟨⟨?_, rfl⟩, rfl⟩
      cases hi : s.init
      · rfl
      · simp [hi] at hc
  | reset =>
    change execReset s = _ at h; unfold execReset at h
    rcases hostOp_cases h with ⟨e, -, rfl⟩ | ⟨hc, rfl⟩
    · exact .inl ⟨e, rfl⟩
    · refine .inr ⟨⟨checkInit_none (by simpa using hc), ?_⟩, by simp⟩
      simp [beDisable, beForceLine, beWait, beClearCaptures, beEnable, State.clearCapture, State.emit]
  | flush a =>
    change execFlush a s = _ at h; unfold execFlush at h
    rcases hostOp_cases h with ⟨e, -, rfl⟩ | ⟨hc, rfl⟩
    · exact .inl ⟨e, rfl⟩
    · simp at hc
      refine .inr ⟨⟨checkInit_none hc.1, cmdFlushWord s.cfg.flushNibble (BitVec.ofNat 4 a), ?_⟩, by simp⟩
      simp [beDisable, beRestart, beClearCaptures, beEnable, bePush, State.clearCapture, State.emit]
  | talk a r =>
    change execTalk a r s = _ at h; unfold execTalk at h
    rcases hostOp_cases h with ⟨e, -, rfl⟩ | ⟨hc, rfl⟩
    · exact .inl ⟨e, rfl⟩
    · simp at hc
      exact .inr ⟨⟨checkInit_none hc.1, (checkAddress_none hc.2.1).1, (checkAddress_none hc.2.1).2,
        checkRegister_none hc.2.2, rfl⟩, rfl⟩
  | listen a r bs =>
    change execListen a r bs s = _ at h; unfold execListen at h
    rcases hostOp_cases h with ⟨e, -, rfl⟩ | ⟨hc, rfl⟩
    · exact .inl ⟨e, rfl⟩
    · simp at hc
      refine .inr ⟨⟨checkInit_none hc.1, _, bePushAll_eq _ _⟩, ?_⟩
      rw [bePushAll_eq]; rfl
  | srqPend =>
    change execSrqPend s = _ at h; unfold execSrqPend at h
    rcases hostOp_cases h with ⟨e, -, rfl⟩ | ⟨hc, rfl⟩
    · exact .inl ⟨e, rfl⟩
    · exact .inr ⟨⟨checkInit_none (by simpa using hc), rfl⟩, rfl⟩
  | tick =>
    change execTick s = _ at h; unfold execTick at h
    obtain ⟨hi, rfl⟩ := handler_cases h
    exact .inr ⟨⟨hi, rfl⟩, rfl⟩
  | srq ws =>
    change execSrq ws s = _ at h; unfold execSrq at h
    obtain ⟨hi, rfl⟩ := handler_cases h
    refine .inr ⟨⟨hi, ?_⟩, by simp [completePoll_eq]⟩
    simp [completePoll_eq, State.clearCapture, State.setSrqPending, State.consumeFlagSrq]
  | eor ws =>
    have hi : s.init = true := by
      cases hi : s.init
      · exact absurd h (by simp [exec, execEor, handler, hi])
      · rfl
    rw [show exec (.eor ws) s = _ from execEor_eq s ws hi] at h
    cases h
    obtain ⟨os, ring, hd, he⟩ := dispatch_eq ((pollCompleted ws s).loadCapture ws).decodeCapture.1
      ((pollCompleted ws s).loadCapture ws).decodeCapture.2
    rw [he]
    refine .inr ⟨⟨hi, ((pollCompleted ws s).loadCapture ws).decodeCapture.2.cap,
      ((pollCompleted ws s).loadCapture ws).capN, os, ring, ⟨hd.1, hd.2, hd.3⟩, ?_⟩, rfl⟩
    simp [State.decodeCapture, State.loadCapture, pollCompleted]
  | onData res =>
    cases h
    obtain ⟨os, ring, hd, he⟩ := dispatch_eq res s.clearOutputs
    exact .inr ⟨⟨os, ring, ⟨hd.1, hd.2, hd.3⟩, he⟩, by rw [he]; rfl⟩
  | kbdSink a r p n =>
    simp only [exec, execKbdSink] at h
    split at h
    · cases h
      refine .inr ⟨⟨by assumption, kbdSink_ring _ _ _ _⟩, ?_⟩
      rw [kbdSink_ring]; rfl
    · cases h
  | ringPut b => cases h; exact .inr ⟨rfl, rfl⟩
  | consume =>
    change execConsume s = _ at h; unfold execConsume at h
    rcases hostOp_cases h with ⟨e, -, rfl⟩ | ⟨hc, rfl⟩
    · exact .inl ⟨e, rfl⟩
    · have hi := checkInit_none (by simpa using hc)
      cases hr : s.ring with
      | nil => exact .inr ⟨⟨hi, .inl ⟨hr, by simp [hr]⟩⟩, by simp [hr]⟩
      | cons b rest =>
        refine .inr ⟨⟨hi, .inr ⟨b, rest, hr, by simp [hr]⟩⟩, ?_⟩
        simp only [clearOutputs_ring, hr]
        rw [decodeScancode_eq]; rfl
  | scByte b => cases h; exact .inr ⟨rfl, by rw [decodeScancode_eq]; rfl⟩
  | scMod sc rel => cases h; exact .inr ⟨rfl, rfl⟩
  | keyDown sc => cases h; exact .inr ⟨rfl, by rfl⟩
  | keyUp sc => cases h; exact .inr ⟨rfl, by rfl⟩
  | keyStateRead =>
    change execKeyStateRead s = _ at h; unfold execKeyStateRead at h
    rcases hostOp_cases h with ⟨e, -, rfl⟩ | ⟨hc, rfl⟩
    · exact .inl ⟨e, rfl⟩
    · exact .inr ⟨⟨checkInit_none (by simpa using hc), rfl⟩, rfl⟩

end Sys2Proof.Machine
end

