-- ==== Sys2Proof/Laws/PerInstr.lean ====
section
/-! SUPPORT. The family FormatOfRow: the encoding of each operation has the format of its row of the table
(30_encoding.md R82 to R84). One lemma for each constructor of Instr. -/

namespace Sys2Proof.Laws.FormatOfRow

open Sys2Proof

/-- The formats an encoding can have: CW, LF, SB of 30_encoding.md, or a line of its script notation. -/
inductive Format where
  | commandWord
  | listenFrame
  | scancodeByte
  | line
  | none
  deriving DecidableEq, Repr

/-- The format of an input. -/
def formatOf : Packet → Format
  | .cw _ => .commandWord
  | .lf _ => .listenFrame
  | .sb _ => .scancodeByte
  | .call _ _ => .line
  | .raw _ _ => .none

/-- The format that the table gives each row. SC.BYTE's own bytes are those of its finer rows, so alone it is a
line (log 11). -/
def rowFormat : Instr → Format
  | .cmdReset => .commandWord
  | .cmdFlush _ => .commandWord
  | .cmdTalk _ _ => .commandWord
  | .cmdListen _ _ => .commandWord
  | .encListen _ => .listenFrame
  | .capUnpack _ => .line
  | .decFrame => .line
  | .init _ _ => .line
  | .reset => .line
  | .flush _ => .line
  | .talk _ _ => .line
  | .listen _ _ _ => .line
  | .srqPend => .line
  | .advance _ => .line
  | .tick => .line
  | .srq _ => .line
  | .eor _ => .line
  | .onData _ => .line
  | .kbdSink _ _ _ _ => .line
  | .ringPut _ => .line
  | .consume => .line
  | .scByte _ => .line
  | .scMod _ _ => .scancodeByte
  | .keyDown _ => .scancodeByte
  | .keyUp _ => .scancodeByte
  | .keyStateRead => .line

/-- The encoding of `i`, whatever the parameters, has the format of its row. -/
def Statement (i : Instr) : Prop := ∀ c : Params, formatOf (encode c i) = rowFormat i

theorem cmdReset : Statement (.cmdReset) := fun _ => rfl
theorem cmdFlush (a : Addr) : Statement (.cmdFlush a) := fun _ => rfl
theorem cmdTalk (a : Addr) (r : Reg) : Statement (.cmdTalk a r) := fun _ => rfl
theorem cmdListen (a : Addr) (r : Reg) : Statement (.cmdListen a r) := fun _ => rfl
theorem encListen (p : List Byte) : Statement (.encListen p) := fun _ => rfl
theorem capUnpack (ws : List Word) : Statement (.capUnpack ws) := fun _ => rfl
theorem decFrame : Statement (.decFrame) := fun _ => rfl
theorem init (p : Pin) (cb : Callback) : Statement (.init p cb) := fun _ => rfl
theorem reset : Statement (.reset) := fun _ => rfl
theorem flush (a : Nat) : Statement (.flush a) := fun _ => rfl
theorem talk (a r : Nat) : Statement (.talk a r) := fun _ => rfl
theorem listen (a r : Nat) (bs : List Byte) : Statement (.listen a r bs) := fun _ => rfl
theorem srqPend : Statement (.srqPend) := fun _ => rfl
theorem advance (a : Addr) : Statement (.advance a) := fun _ => rfl
theorem tick : Statement (.tick) := fun _ => rfl
theorem srq (ws : List Word) : Statement (.srq ws) := fun _ => rfl
theorem eor (ws : List Word) : Statement (.eor ws) := fun _ => rfl
theorem onData (r : FrameResult) : Statement (.onData r) := fun _ => rfl
theorem kbdSink (a r : Byte) (p : List Byte) (n : Nat) : Statement (.kbdSink a r p n) := fun _ => rfl
theorem ringPut (b : Byte) : Statement (.ringPut b) := fun _ => rfl
theorem consume : Statement (.consume) := fun _ => rfl
theorem scByte (b : Byte) : Statement (.scByte b) := fun _ => rfl
theorem scMod (sc : Scancode) (rel : Bool) : Statement (.scMod sc rel) := fun _ => rfl
theorem keyDown (sc : Scancode) : Statement (.keyDown sc) := fun _ => rfl
theorem keyUp (sc : Scancode) : Statement (.keyUp sc) := fun _ => rfl
theorem keyStateRead : Statement (.keyStateRead) := fun _ => rfl

end Sys2Proof.Laws.FormatOfRow
end

