-- ==== Sys2Proof/Tests/Slice0.lean ====
section
/-! SUPPORT. Tests: ill-formed terms are refused, words written out from 30_encoding.md decode to their operations,
one step of each operation answers what 95_test_vectors.md gives (each test names its vector), and the
hypotheses of every statement can be met. -/

namespace Sys2Proof.Tests

open Sys2Proof Sys2Proof.Machine

/-- The parameters of 95_test_vectors.md section 0. -/
def par : Params := Config.defaults

/-- The state after `init` with those parameters and the keyboard sink registered (10_state.md R26). -/
def started : State :=
  { State.reset with
    init := true, cb := .kbdSink, curAddr := 2, nextAddr := 2, timer := .armed 11, busIrq := true
    be := { Backend.reset with enabled := true } }

/-- Whether a step goes on to a state that meets a check. -/
def after (r : Result) (check : State → Bool) : Bool :=
  match r with
  | .next t => check t
  | .fault _ => false
  | .refused _ => false

/-- The key list of six codes given as numbers. -/
def keysOf (a b c d e f : Nat) : Vector KeyCode 6 :=
  #v[a, b, c, d, e, f]

/-! ## WellFormed refuses -/

theorem test_wf_flush_zero_byte : Instr.wellFormed { par with flushNibble := 0 } (.cmdFlush 0) = false := by decide
theorem test_wf_listen_nine_bytes : Instr.wellFormed par (.encListen [1, 2, 3, 4, 5, 6, 7, 8, 9]) = false := by decide
theorem test_wf_dispatch_nine_bytes :
    Instr.wellFormed par (.onData (.frame [1, 2, 3, 4, 5, 6, 7, 8, 9])) = false := by decide
theorem test_wf_sink_address_low : Instr.wellFormed par (.kbdSink 1 0 [] 0) = false := by decide
theorem test_wf_sink_address_high : Instr.wellFormed par (.kbdSink 16 0 [] 0) = false := by decide
theorem test_wf_sink_register : Instr.wellFormed par (.kbdSink 2 4 [] 0) = false := by decide
theorem test_wf_sink_nine_bytes :
    Instr.wellFormed par (.kbdSink 2 0 [1, 2, 3, 4, 5, 6, 7, 8, 9] 9) = false := by decide
theorem test_wf_sink_length : Instr.wellFormed par (.kbdSink 2 0 [1] 2) = false := by decide
theorem test_wf_scMod_no_modifier : Instr.wellFormed par (.scMod 0x39 false) = false := by decide
theorem test_wf_keyDown_modifier : Instr.wellFormed par (.keyDown 0x38) = false := by decide
theorem test_wf_keyDown_nokey : Instr.wellFormed par (.keyDown 0x7F) = false := by decide
theorem test_wf_keyUp_modifier : Instr.wellFormed par (.keyUp 0x38) = false := by decide
theorem test_wf_keyUp_nokey : Instr.wellFormed par (.keyUp 0x7F) = false := by decide

/-! ## Every constructor from its encoding, written out -/

/-- R71: the Reset byte is 0. -/
theorem test_decode_cmdReset : decode par (.cw 0x00000000) = .ok .cmdReset := by decide
/-- R71 `aaaa0001`, a = 1111. -/
theorem test_decode_cmdFlush : decode par (.cw 0b11110001000000000000000000000000) = .ok (.cmdFlush 15) := by decide
/-- R71 `aaaa11rr`, a = 0111, r = 10. -/
theorem test_decode_cmdTalk : decode par (.cw 0b01111110000000000000000000000000) = .ok (.cmdTalk 7 2) := by decide
/-- R71 `aaaa10rr`, a = 0011, r = 01. -/
theorem test_decode_cmdListen : decode par (.cw 0b00111001000000000000000000000000) = .ok (.cmdListen 3 1) := by decide
/-- U10: the low 24 bits of a received command word are any value. -/
theorem test_decode_low_bits : decode par (.cw 0x2C123456) = .ok (.cmdTalk 2 0) := by decide
/-- R79, last row. -/
theorem test_decode_undefined : decode par (.cw 0x22000000) = .error .undefinedCommandByte := by decide
/-- R72, R73: no data byte. -/
theorem test_decode_encListen_empty : decode par (.lf [0xFF000000]) = .ok (.encListen []) := by decide
/-- 95_test_vectors.md section 2.2, eight data bytes. -/
theorem test_decode_encListen_full : decode par (.lf [0x3F112233, 0x44556677, 0x88000000])
    = .ok (.encListen [0x11, 0x22, 0x33, 0x44, 0x55, 0x66, 0x77, 0x88]) := by decide
/-- R73: 0x10 stands for no length. -/
theorem test_decode_listen_header : decode par (.lf [0x10414200]) = .error .listenHeader := by decide
/-- R74: the padding is zero. -/
theorem test_decode_listen_padding : decode par (.lf [0x0F414201]) = .error .listenPadding := by decide
theorem test_decode_listen_words : decode par (.lf [0x0F414200, 0]) = .error .listenPadding := by decide
/-- R77: release 1, scancode 0x38. -/
theorem test_decode_scMod : decode par (.sb 0b10111000) = .ok (.scMod 0x38 true) := by decide
theorem test_decode_keyDown : decode par (.sb 0b00000100) = .ok (.keyDown 4) := by decide
theorem test_decode_keyUp : decode par (.sb 0b10000001) = .ok (.keyUp 1) := by decide
/-- R80: a scancode with no key. -/
theorem test_decode_scByte_nokey : decode par (.sb 0xFF) = .ok (.scByte 0xFF) := by decide
/-- R83, the lines of the script notation. -/
theorem test_decode_init : decode par (.call .init [.pin ⟨7⟩, .callback .kbdSink]) = .ok (.init ⟨7⟩ .kbdSink) := by decide
theorem test_decode_reset : decode par (.call .reset []) = .ok .reset := by decide
theorem test_decode_flush : decode par (.call .flush [.num 16]) = .ok (.flush 16) := by decide
theorem test_decode_talk : decode par (.call .talk [.num 7, .num 3]) = .ok (.talk 7 3) := by decide
theorem test_decode_listen : decode par (.call .listen [.num 2, .num 0, .nums [0x41, 0x42]])
    = .ok (.listen 2 0 [0x41, 0x42]) := by decide
theorem test_decode_srqPend : decode par (.call .srqp []) = .ok .srqPend := by decide
theorem test_decode_tick : decode par (.call .tick []) = .ok .tick := by decide
theorem test_decode_srq : decode par (.call .srq [.nums [0x12345678]]) = .ok (.srq [0x12345678]) := by decide
theorem test_decode_eor : decode par (.call .eor [.nums [0x00808100]]) = .ok (.eor [0x00808100]) := by decide
theorem test_decode_consume : decode par (.call .consume []) = .ok .consume := by decide
theorem test_decode_scByte : decode par (.call .sc [.num 0x81]) = .ok (.scByte 0x81) := by decide
theorem test_decode_read : decode par (.call .read []) = .ok .keyStateRead := by decide
theorem test_decode_capUnpack : decode par (.call .unpack [.nums [0x80]]) = .ok (.capUnpack [0x80]) := by decide
theorem test_decode_decFrame : decode par (.call .decodeFrame []) = .ok .decFrame := by decide
theorem test_decode_advance : decode par (.call .advance [.num 15]) = .ok (.advance 15) := by decide
theorem test_decode_onData : decode par (.call .dispatch [.frame .noFrame]) = .ok (.onData .noFrame) := by decide
theorem test_decode_kbdSink : decode par (.call .kbdSink [.num 2, .num 0, .nums [1, 2], .num 2])
    = .ok (.kbdSink 2 0 [1, 2] 2) := by decide
theorem test_decode_ringPut : decode par (.call .ringPut [.num 3]) = .ok (.ringPut 3) := by decide
theorem test_decode_arguments : decode par (.call .tick [.num 1]) = .error .arguments := by decide
theorem test_decode_width : decode par (.call .sc [.num 256]) = .error .argumentWidth := by decide
theorem test_decode_format : decode par (.raw 16 0) = .error .noSuchFormat := by decide
theorem test_decode_domain : decode par (.call .kbdSink [.num 1, .num 0, .nums [], .num 0])
    = .error .illFormed := by decide

/-! ## The codec, 95_test_vectors.md V1 to V3 and sections 2.1 to 2.6 -/

theorem test_cmdReset : after (exec .cmdReset started) (·.ret == .word 0x00000000) = true := by decide
theorem test_cmdFlush : after (exec (.cmdFlush 3) started) (·.ret == .word 0x31000000) = true := by decide
theorem test_cmdTalk : after (exec (.cmdTalk 7 3) started) (·.ret == .word 0x7F000000) = true := by decide
theorem test_cmdListen : after (exec (.cmdListen 3 2) started) (·.ret == .word 0x3A000000) = true := by decide
theorem test_encListen_empty :
    after (exec (.encListen []) started) (·.ret == .words [0xFF000000]) = true := by decide
theorem test_encListen_seven : after (exec (.encListen [1, 2, 3, 4, 5, 6, 7]) started)
    (·.ret == .words [0x37010203, 0x04050607]) = true := by decide
/-- Section 2.3, last row: four words, nine bytes kept. -/
theorem test_capUnpack : after (exec (.capUnpack [1, 2, 3, 4]) started)
    (·.ret == .capture [0, 0, 0, 1, 0, 0, 0, 2, 0] 9) = true := by decide
/-- R8: an UNPACK given as a graph answers as given. -/
theorem test_capUnpack_given : after
    (exec (.capUnpack [7]) { started with cfg := { par with
      unpack := .given [([6], (Vector.replicate 9 0, 1)), ([7], (#v[1, 2, 3, 4, 5, 6, 7, 8, 9], 2))] 0 } })
    (·.ret == .capture [1, 2] 2) = true := by decide
/-- V1a. -/
theorem test_decFrame : after
    (exec .decFrame { started with cap := #v[0, 0, 0, 0xB2, 0x40, 0, 0, 0, 0], capN := 9 })
    (·.ret == .frame (.frame [0x64, 0x80, 0, 0, 0])) = true := by decide
/-- D-6: the buffer after the call; the byte at CAP_N is not touched. -/
theorem test_decFrame_shift : after
    (exec .decFrame { started with cap := #v[0, 0x80, 0x81, 0, 0xEE, 0, 0, 0, 0], capN := 4 })
    (·.cap == #v[0, 1, 2, 0, 0xEE, 0, 0, 0, 0]) = true := by decide
theorem test_advance_wrap : after (exec (.advance 15) started) (·.ret == .addr 2) = true := by decide
theorem test_advance_next : after (exec (.advance 14) started) (·.ret == .addr 15) = true := by decide

/-! ## Host operations, section 2.7 -/

theorem test_init : after (exec (.init ⟨1⟩ .kbdSink) State.reset)
    (fun t => t.init && t.out == [.clearCaptures, .enable] && t.nextAddr == 2) = true := by decide
theorem test_init_again : after (exec (.init ⟨1⟩ .kbdSink) started) (·.status == some .reinit) = true := by decide
theorem test_reset : after (exec .reset { started with capN := 4, srqPending := true })
    (fun t => t.out == [.disable, .forceLine .low, .wait 3, .forceLine .high, .clearCaptures, .enable]
      && t.capN == 0 && t.srqPending) = true := by decide
theorem test_reset_uninit : after (exec .reset State.reset) (·.status == some .uninit) = true := by decide
theorem test_flush : after (exec (.flush 15) started)
    (·.out == [.disable, .restart, .clearCaptures, .enable, .push 0xF1000000]) = true := by decide
theorem test_flush_address : after (exec (.flush 16) started) (·.status == some .badAddress) = true := by decide
theorem test_talk : after (exec (.talk 7 3) started)
    (fun t => t.nextAddr == 7 && t.nextReg == 3 && t.curAddr == 2 && t.out == []) = true := by decide
theorem test_talk_order : after (exec (.talk 1 4) started) (·.status == some .badAddress) = true := by decide
/-- V2. -/
theorem test_listen : after (exec (.listen 2 0 [0x41, 0x42]) started)
    (·.out == [.push 0x28000000, .push 0x0F414200]) = true := by decide
theorem test_listen_long : after (exec (.listen 3 2 [1, 2, 3, 4, 5, 6, 7, 8, 9]) started)
    (fun t => t.status == some .callerMisuse && t.out == []) = true := by decide
theorem test_srqPend : after (exec .srqPend { started with srqPending := true })
    (fun t => t.ret == .bool true && !t.srqPending) = true := by decide

/-! ## Events, section 2.8 -/

theorem test_tick : after (exec .tick { started with nextAddr := 7, nextReg := 3 })
    (fun t => t.out == [.push 0x7F000000] && t.curAddr == 7 && t.curReg == 3 && t.nextReg == 0) = true := by decide
theorem test_tick_uninit : exec .tick State.reset = .refused .eventNotEnabled := rfl
theorem test_srq : after (exec (.srq [0x12345678]) { started with curAddr := 7, nextAddr := 15, nextReg := 3 })
    (fun t => t.out == [.forceFlush, .pop 0x12345678, .restart] && t.nextAddr == 2 && t.nextReg == 0
      && t.curAddr == 7 && t.srqPending) = true := by decide
theorem test_eor : after (exec (.eor [0x00808100]) started)
    (fun t => t.out == [.forceFlush, .pop 0x00808100, .restart, .onData 2 0 [1, 2] 2] && t.capN == 4
      && t.ring == [1, 2]) = true := by decide
theorem test_eor_never : after
    (exec (.eor [0x00000080]) { started with cfg := { par with emptyPolicy := .never } })
    (fun t => t.out == [.forceFlush, .pop 0x00000080, .restart] && t.capN == 4) = true := by decide
theorem test_onData_empty : after (exec (.onData (.frame [])) { started with curAddr := 3 })
    (·.out == [.onData 3 0 [] 0]) = true := by decide
theorem test_onData_noFrame : after (exec (.onData .noFrame) started) (·.out == []) = true := by decide

/-! ## Ring and decoder: R160 to R166, V6, V7 -/

theorem test_kbdSink : after (exec (.kbdSink 2 0 [1, 2] 2) started) (·.ring == [1, 2]) = true := by decide
theorem test_kbdSink_filter : after (exec (.kbdSink 3 0 [1] 1) started) (·.ring == []) = true := by decide
theorem test_ringPut_full : after (exec (.ringPut 3) { started with ring := [1, 2], cfg := { par with ringCap := 2 } })
    (·.ring == [2, 3]) = true := by decide
theorem test_consume : after (exec .consume { started with ring := [0x01, 0x02] })
    (fun t => t.ring == [0x02] && t.keys == keysOf 2 0 0 0 0 0) = true := by decide
theorem test_consume_empty : after (exec .consume started) (·.status == none) = true := by decide
theorem test_scByte_nokey : after (exec (.scByte 0xFF) { started with keys := keysOf 5 0 0 0 0 0 })
    (·.keys == keysOf 5 0 0 0 0 0) = true := by decide
theorem test_scByte_up : after (exec (.scByte 0x81) { started with keys := keysOf 3 2 1 0 0 0 })
    (·.keys == keysOf 3 1 0 0 0 0) = true := by decide
theorem test_scMod_set : after (exec (.scMod 0x38 false) started)
    (fun t => t.mods.lShift && !t.mods.rShift && t.keys == keysOf 0 0 0 0 0 0) = true := by decide
theorem test_scMod_clear : after
    (exec (.scMod 0x7B true) { started with mods := { ModFlags.none with lShift := true, rShift := true } })
    (fun t => t.mods.lShift && !t.mods.rShift) = true := by decide
theorem test_keyDown_held : after (exec (.keyDown 1) { started with keys := keysOf 3 2 0 0 0 0 })
    (·.keys == keysOf 3 2 0 0 0 0) = true := by decide
theorem test_keyDown_full : after (exec (.keyDown 6) { started with keys := keysOf 6 5 4 3 2 1 })
    (·.keys == keysOf 7 6 5 4 3 2) = true := by decide
theorem test_keyUp : after (exec (.keyUp 2) { started with keys := keysOf 4 3 2 0 0 0 })
    (·.keys == keysOf 4 2 0 0 0 0) = true := by decide
theorem test_keyUp_absent : after (exec (.keyUp 8) { started with keys := keysOf 4 3 2 0 0 0 })
    (·.keys == keysOf 4 3 2 0 0 0) = true := by decide
theorem test_keyStateRead : after (exec .keyStateRead { started with keys := keysOf 4 0 0 0 0 0 })
    (·.ret == .keyState (keysOf 4 0 0 0 0 0) ModFlags.none) = true := by decide

/-! ## The step -/

theorem test_step_idle : step started = .next started := rfl
theorem test_step_undecodable : step { started with inputs := [.raw 16 0] }
    = .refused (.undecodable .noSuchFormat) := rfl
theorem test_fetch_first : after (step (State.reset.withFetchWord 32 0x7F000000))
    (·.ret == .word 0x7F000000) = true := by decide

/-! ## Witnesses: a state and operands that meet the hypotheses of each statement, each clause at a boundary -/

/-- FlushPushesFlushWord, TalkRecordsTarget, ListenPushesFrame, LastTalkIsPolled: operands at both ends of the range
of addresses, registers and payloads, in the state after `init`. -/
theorem witness_hostOperands : started.init = true ∧ (2 ≤ 2 ∧ 2 ≤ 15 ∧ 0 ≤ 3) ∧ (2 ≤ 15 ∧ 15 ≤ 15 ∧ 3 ≤ 3) ∧
    ([] : List Byte).length ≤ 8 ∧ ([1, 2, 3, 4, 5, 6, 7, 8] : List Byte).length ≤ 8 := by decide

theorem witness_ListenFrameBytes : ([] : List Byte).length ≤ 8 ∧ ([1, 2, 3, 4, 5, 6, 7, 8] : List Byte).length ≤ 8 := by
  decide
theorem witness_LongListenFrameRefused : 8 < ([1, 2, 3, 4, 5, 6, 7, 8, 9] : List Byte).length := by decide
theorem witness_CaptureUnpackBytes : started.cfg.unpack = .keepAll ∧
    8 < (unpackBytes started.cfg.unpack [1, 2, 3]).length := by decide

/-- A full buffer of zeros: no start. -/
theorem witness_FrameDecodeInPlace_none : ∀ i : Fin 9, i.val < ({ started with capN := 9 } : State).capN.val →
    ({ started with capN := 9 } : State).cap[i] = 0#8 := by decide
/-- The start at the last byte of a full buffer, and at the first of a buffer of one byte. -/
theorem witness_FrameDecodeInPlace_last :
    let s : State := { started with cap := #v[0, 0, 0, 0, 0, 0, 0, 0, 1], capN := 9 }
    (8 : Fin 9).val < s.capN.val ∧ s.cap[(8 : Fin 9)] ≠ 0#8 ∧ ∀ i : Fin 9, i < 8 → s.cap[i] = 0#8 := by decide
theorem witness_FrameDecodeInPlace_first :
    let s : State := { started with cap := #v[1, 0, 0, 0, 0, 0, 0, 0, 0], capN := 1 }
    (0 : Fin 9).val < s.capN.val ∧ s.cap[(0 : Fin 9)] ≠ 0#8 ∧ ∀ i : Fin 9, i < 0 → s.cap[i] = 0#8 := by decide

theorem witness_FrameDecodeInvertsFrame9_longest :
    0 + ([0x11, 0x22, 0x33, 0x44, 0x55, 0x66, 0x77, 0x88] : List Byte).length + 1 ≤ 9 ∧
    ({ started with cap := #v[0x88, 0x91, 0x19, 0xA2, 0x2A, 0xB3, 0x3B, 0xC4, 0], capN := 9 } : State).captured =
      frame9 0 [0x11, 0x22, 0x33, 0x44, 0x55, 0x66, 0x77, 0x88] 0 := by decide
theorem witness_FrameDecodeInvertsFrame9_empty : 8 + ([] : List Byte).length + 1 ≤ 9 ∧
    ({ started with cap := #v[0, 0, 0, 0, 0, 0, 0, 0, 0x80], capN := 9 } : State).captured = frame9 8 [] 0 := by decide

/-- Each failing check, at the nearest bad value. -/
theorem witness_HostChecksInOrder : started.init = true ∧ State.reset.init = false ∧ ¬(2 ≤ 1 ∧ 1 ≤ 15) ∧
    ¬(2 ≤ 16 ∧ 16 ≤ 15) ∧ 3 < 4 ∧ 8 < ([1, 2, 3, 4, 5, 6, 7, 8, 9] : List Byte).length := by decide
theorem witness_InitInitialises : State.reset.init = false := rfl
theorem witness_ResetHoldsLine : started.init = true := rfl
theorem witness_SrqPendReadsAndClears : started.init = true := rfl
theorem witness_RequestsReportedOnce : started.init = true ∧ ([[]] : List (List Word)) ≠ [] := by decide
theorem witness_AdvanceRotates : 15 ≤ (15 : Addr).toNat ∧ (1 : Addr).toNat ≤ 1 ∧ 2 ≤ (2 : Addr).toNat ∧
    (14 : Addr).toNat ≤ 14 ∧ 0 < (13 : Fin 14).val := by decide
theorem witness_TickPollsNext : started.init = true := rfl
theorem witness_SrqAdvancesTarget : started.init = true := rfl
theorem witness_EventsNeedInit : State.reset.init = false := rfl

/-- EorDeliversPayload, OnDataDispatches: the sink listens to the poll of the keyboard, with an empty ring and with a full one. -/
theorem witness_sinkListens : started.init = true ∧ started.SinkListens ∧ 1 ≤ started.cfg.ringCap ∧
    started.ring.length ≤ started.cfg.ringCap ∧ (List.replicate 16 0#8).length ≤ started.cfg.ringCap :=
  ⟨rfl, ⟨rfl, rfl, rfl⟩, by decide, by decide, by decide⟩
/-- EorDeliversPayload, OnDataDispatches: it does not listen to another address, another register or with another callback. -/
theorem witness_sinkSilent : ¬({ started with curAddr := 3 } : State).SinkListens ∧
    ¬({ started with curReg := 1 } : State).SinkListens ∧ ¬({ started with cb := .other 0 } : State).SinkListens :=
  ⟨fun h => absurd h.2.1 (by decide), fun h => absurd h.2.2 (by decide), fun h => absurd h.1 (by decide)⟩

theorem witness_RotationSequence : started.init = true ∧ started.nextAddr = 2#4 ∧
    (∀ i ∈ [Instr.srq [], .reset, .tick], (∀ a r, i ≠ .talk a r) ∧ ∀ p cb, i ≠ .init p cb) ∧
    ∃ t, runOps [.srq [], .reset, .tick] started = .next t := ⟨rfl, rfl, by simp, _, rfl⟩
theorem witness_RepollWithoutRequest : started.init = true ∧
    (∀ i ∈ [Instr.reset], (∀ a r, i ≠ .talk a r) ∧ ∀ ws, i ≠ .srq ws) ∧
    ∃ t u v, exec .tick started = .next t ∧ runOps [.reset] t = .next u ∧ exec .tick u = .next v :=
  ⟨rfl, by simp, _, _, _, rfl, rfl, rfl⟩
theorem witness_BothSignalOrders : started.init = true ∧ started.cfg.unpack = .keepAll ∧
    started.cfg.emptyPolicy ≠ .always := by decide

theorem witness_KbdSinkFillsRing : 2 ≤ ([1, 2] : List Byte).length ∧
    (2 : Byte).toNat = started.cfg.kbdAddr.toNat ∧ (0 : Byte).toNat = started.cfg.kbdReg.toNat ∧
    ¬((3 : Byte).toNat = started.cfg.kbdAddr.toNat ∧ (0 : Byte).toNat = started.cfg.kbdReg.toNat) ∧
    1 ≤ started.cfg.ringCap ∧ started.ring.length ≤ started.cfg.ringCap := by decide
theorem witness_KbdSinkPastPayloadFaults : ([1] : List Byte).length < 2 := by decide
theorem witness_RingPutOverwritesOldest : (List.replicate 15 0#8).length ≠ started.cfg.ringCap ∧
    (List.replicate 16 0#8).length = started.cfg.ringCap := by decide
theorem witness_ConsumeTakesOldest : started.init = true ∧ started.ring = [] ∧
    ({ started with ring := [1] } : State).ring = 1 :: [] := by decide

/-- A byte of each class: a modifier, a scancode with no key, a key down, a key up. -/
theorem witness_ScancodeByteClasses :
    isModifier par (scancodeOf 0xB8) = true ∧ isModifier par (scancodeOf 0xFF) = false ∧
    translate par (scancodeOf 0xFF) = par.noKey ∧ isModifier par (scancodeOf 0x7E) = false ∧
    translate par (scancodeOf 0x7E) ≠ par.noKey ∧ (0x7E : Byte).getLsbD 7 = false ∧
    (0x80 : Byte).getLsbD 7 = true ∧ translate par (scancodeOf 0x80) ≠ par.noKey := by decide
theorem witness_ModifierWritesOneFlag : started.cfg.wf = true := by decide
/-- No key; a held key; an absent key. -/
theorem witness_KeyDownInsertsFirst : par.xlat.toList.getD (0x7F : Scancode).toNat 0 = par.noKey ∧
    par.xlat.toList.getD (1 : Scancode).toNat 0 ≠ par.noKey ∧
    (∃ i : Fin 6, (keysOf 6 5 4 3 1 2)[i] = par.xlat.toList.getD (1 : Scancode).toNat 0) ∧
    ∀ i : Fin 6, (keysOf 6 5 4 3 1 7)[i] ≠ par.xlat.toList.getD (1 : Scancode).toNat 0 := by decide
/-- The key at the first slot and at the last. -/
theorem witness_KeyUpClosesGap : par.xlat.toList.getD (1 : Scancode).toNat 0 ≠ par.noKey ∧
    (keysOf 2 0 0 0 0 0)[(0 : Fin 6)] = par.xlat.toList.getD (1 : Scancode).toNat 0 ∧
    (keysOf 6 5 4 3 1 2)[(5 : Fin 6)] = par.xlat.toList.getD (1 : Scancode).toNat 0 ∧
    (∀ j : Fin 6, j < 5 → (keysOf 6 5 4 3 1 2)[j] ≠ par.xlat.toList.getD (1 : Scancode).toNat 0) ∧
    ∀ i : Fin 6, (keysOf 6 5 4 3 1 7)[i] ≠ par.xlat.toList.getD (1 : Scancode).toNat 0 := by decide
/-- Bytes as key codes, numbered by their values, in the state after `init`. -/
theorem witness_KeyCodeIsParameter :
    let s : State := { started with cfg := { par with xlat := (Vector.replicate 256 1#8).map BitVec.toNat } }
    (∀ x y : Byte, x.toNat = y.toNat → x = y) ∧ s.cfg.noKey = (0#8).toNat ∧
      s.cfg.xlat = (Vector.replicate 256 1#8).map BitVec.toNat ∧
      s.keys = (Vector.replicate 6 0#8).map BitVec.toNat ∧ isModifier s.cfg (scancodeOf 0x7F) = false :=
  ⟨fun _ _ => BitVec.eq_of_toNat_eq, rfl, rfl, by simp [started, State.reset, Config.defaults], by decide⟩
/-- A drain among the given ones, and a state with a given `UNPACK`. -/
theorem witness_UnpackIsParameter : ([] : List Word) ∈ [[], [0x80000000]] ∧
    ({ started with cfg := { par with unpack := .given [([], (Vector.replicate 9 0, 0))] 0 } } : State).cfg.unpack =
      .given [([], (Vector.replicate 9 0, 0))] 0 := by decide
theorem witness_KeyStateSnapshot : started.init = true := rfl
theorem witness_KeyOrderAndIdempotence : (0x04 : Byte).getLsbD 7 = false ∧ isModifier par (scancodeOf 0x04) = false ∧
    (∀ x ∈ [(0 : Scancode), 1, 2], isModifier par x = false) ∧
    [translate par 0, translate par 1, translate par 2, par.noKey].Nodup ∧
    started.keys = #v[par.noKey, par.noKey, par.noKey, par.noKey, par.noKey, par.noKey] := by decide

/-- The state after `init` meets the invariant, and a step goes on from it. -/
theorem witness_StepKeepsInv : ({ started with inputs := [.call .tick []] } : State).Inv ∧
    ∃ t, step { started with inputs := [.call .tick []] } = .next t :=
  ⟨⟨by decide, fun _ => ⟨by decide, by decide⟩, fun _ => ⟨by decide, by decide⟩, fun _ => by decide,
    fun _ => by decide, fun _ => ⟨rfl, rfl⟩⟩, _, rfl⟩
theorem witness_NoStopAfterInit : started.init = true ∧
    ({ started with inputs := [.call .tick []] } : State).inputs = .call .tick [] :: [] ∧
    decode started.cfg (.call .tick []) = .ok .tick := by decide

/-- CursorWriters, CaptureWriters, SrqPendingWriters, UntriggeredFlagsNeverSet, PushesReachQueueInOrder,
AtMostOneCallback, CapturesCleared: a step of each kind of operation they tell apart. -/
theorem witness_writers : (∃ t, exec .reset started = .next t ∧ t.status = none) ∧
    (∃ t, exec .tick started = .next t ∧ t.status = none) ∧
    (∃ t, exec (.flush 2) started = .next t ∧ t.status = none ∧ pushesOf t.out ≠ []) ∧
    (∃ t, exec (.talk 7 3) started = .next t ∧ t.status = none) ∧
    (∃ t, exec (.listen 2 0 []) started = .next t ∧ pushesOf t.out ≠ []) ∧
    (∃ t, exec (.srq []) started = .next t ∧ t.status = none) ∧
    (∃ t, exec (.eor []) started = .next t ∧ t.status = none) ∧
    (∃ t, exec .srqPend started = .next t ∧ t.status = none) ∧
    (∃ t, exec .decFrame started = .next t) ∧
    (∃ t, exec (.onData (.frame [])) started = .next t) ∧
    ∃ t, exec (.init ⟨1⟩ .kbdSink) State.reset = .next t ∧ t.status = none :=
  ⟨⟨_, rfl, rfl⟩, ⟨_, rfl, rfl⟩, ⟨_, rfl, rfl, by decide⟩, ⟨_, rfl, rfl⟩, ⟨_, rfl, by decide⟩, ⟨_, rfl, rfl⟩,
    ⟨_, rfl, rfl⟩, ⟨_, rfl, rfl⟩, ⟨_, rfl⟩, ⟨_, rfl⟩, ⟨_, rfl, rfl⟩⟩
theorem witness_KeyStateWriters : ∃ t, exec (.keyDown 1) started = .next t ∧ t.keys ≠ started.keys :=
  ⟨_, rfl, by decide⟩
theorem witness_InitialisedForEver : ∃ t, exec (.init ⟨1⟩ .kbdSink) State.reset = .next t ∧
    State.reset.init = false ∧ t.init = true := ⟨_, rfl, rfl, rfl⟩
theorem witness_ParametersReadOnly : ∃ t, step started = .next t := ⟨_, rfl⟩
theorem witness_RaiseChangesNothing : ∃ t, exec (.flush 1) started = .next t ∧ t.status ≠ none :=
  ⟨_, rfl, by decide⟩

theorem witness_DecodeInvertsEncode : par.wf = true ∧ Instr.wellFormed par (.encListen [1, 2, 3, 4, 5, 6, 7, 8]) = true ∧
    Instr.wellFormed par (.keyUp 0x7E) = true := by decide
theorem witness_EncodeInvertsDecode : decode par (.cw 0x2C123456) = .ok (.cmdTalk 2 0) ∧
    decode par (.lf [0xFF000000]) = .ok (.encListen []) ∧ decode par (.sb 0x81) = .ok (.keyUp 1) ∧
    decode par (.sb 0x7F) = .ok (.scByte 0x7F) := by decide
/-- A byte of each row of R79. -/
theorem witness_CommandBytesPartitioned : par.wf = true ∧ (0x2C : Byte).extractLsb' 2 2 = 0b11#2 ∧
    (0x28 : Byte).extractLsb' 2 2 = 0b10#2 ∧ (0x21 : Byte).extractLsb' 0 4 = par.flushNibble ∧
    (0x20 : Byte).extractLsb' 3 1 = 0#1 ∧ (0x20 : Byte) ≠ 0#8 ∧ (0x20 : Byte).extractLsb' 0 4 ≠ par.flushNibble := by
  decide
theorem witness_StepRunsNextInput : ({ started with inputs := [.call .tick []] } : State).inputs = .call .tick [] :: [] ∧
    decode started.cfg (.call .tick []) = .ok .tick ∧ decode started.cfg (.raw 16 0) = .error .noSuchFormat := by decide
theorem witness_FetchWordIsNext : decode State.reset.cfg (packetOfBits 8 0x04) = .ok (.keyDown 4) := by decide

end Sys2Proof.Tests
end

/-! The scope of the model (00_scope.md): a step runs the next input (R6), power-on meets the invariant, and the
parameters `KeyCode` and `UNPACK` of R8 may be any type and any function. -/

namespace Sys2Proof.Scope

open Sys2Proof.Machine

/-! ## A step and its input -/

/-- With no input the block waits. -/
theorem step_of_no_input {s : State} (h : s.inputs = []) : step s = .next s := by
  simp [step, nextInput, h]

/-- With an input waiting, the decoder's answer is the step's: an operation to run, or a reason to refuse. -/
theorem step_of_input {s : State} {p : Packet} {rest : List Packet} (h : s.inputs = p :: rest) :
    (∀ i, decode s.cfg p = .ok i → step s = exec i { s with inputs := rest }) ∧
      ∀ e, decode s.cfg p = .error e → step s = .refused (.undecodable e) := by
  constructor
  · intro i hi
    simp [step, nextInput, h, hi]
  · intro e he
    simp [step, nextInput, h, he]

/-- Settles O54. -/
theorem stepRunsNextInput : Obligations.StepRunsNextInput := fun _ _ _ h =>
  ⟨(step_of_input h).1, (step_of_input h).2, step_of_no_input rfl⟩

/-- Settles O55: taking the input that was placed gives back the state before. -/
theorem fetchWordIsNext : Obligations.FetchWordIsNext := by
  intro s nbits w i hi
  exact (step_of_input (s := s.withFetchWord nbits w) rfl).1 i hi

/-! ## Power-on -/

/-- The defaults that R8 recommends meet the constraints of R8. -/
theorem defaults_wf : Config.defaults.wf = true := by decide

/-- Before `init` the invariant is only about the parameters. -/
theorem inv_of_uninit {s : State} (hp : s.cfg.wf = true) (hi : s.init = false) : s.Inv := by
  constructor
  case params => exact hp
  all_goals exact fun h => absurd h (by simp [hi])

/-- Settles O36. -/
theorem powerOnMeetsInv : Obligations.PowerOnMeetsInv := inv_of_uninit defaults_wf rfl

/-! ## Any function as UNPACK (log 15) -/

/-- The value of the parameter that answers as `U` does on each of the drains. -/
def unpackAs (U : List Word → Unpacked) (drains : List (List Word)) : UnpackPolicy :=
  .given (drains.map fun ws => (ws, U ws)) 0

/-- On those drains, what it unpacks is what `U` answers: a drain among them stands in the graph, and every entry
of the graph is an answer of `U`. -/
theorem unpackBytes_unpackAs {U : List Word → Unpacked} {drains : List (List Word)} {ws : List Word}
    (h : ws ∈ drains) : unpackBytes (unpackAs U drains) ws = unpackedBytes (U ws) := by
  have hin : (ws, U ws) ∈ drains.map fun ws => (ws, U ws) := List.mem_map_of_mem h
  rcases unpackGiven_cases (drains.map fun ws => (ws, U ws)) 0 ws with ⟨u, hu, he⟩ | ⟨hno, -⟩
  · obtain ⟨v, -, hv⟩ := List.mem_map.mp hu
    obtain ⟨rfl, rfl⟩ := Prod.mk.inj hv
    exact congrArg unpackedBytes he
  · exact absurd hin (hno _)

/-- An answer has as many bytes as its count says. -/
theorem unpackedBytes_length (u : Unpacked) : (unpackedBytes u).length = u.2.val := by
  have := u.2.isLt
  simp [unpackedBytes]
  omega

/-- CAP.UNPACK returns the unpacked bytes and their number, and changes nothing else (R105). -/
theorem exec_capUnpack (ws : List Word) (s : State) : exec (.capUnpack ws) s = .next { s with
    out := []
    ret := .capture (unpackBytes s.cfg.unpack ws) (unpackBytes s.cfg.unpack ws).length
    status := none } := by
  rw [← Nat.min_eq_right (unpackBytes_length s.cfg.unpack ws)]
  rfl

/-- Settles O58: the parameter is the graph of the function on the drains. -/
theorem unpackIsParameter : Obligations.UnpackIsParameter := by
  intro U drains
  refine ⟨unpackAs U drains, fun ws hws s hs => ?_⟩
  rw [exec_capUnpack, hs, unpackBytes_unpackAs hws, unpackedBytes_length]
  rfl

/-! ## Any type as KeyCode (log 5)

The decoder does no more with two codes than compare them, so a numbering that does not confuse the codes at hand
commutes with every operation on key lists. -/

section Numbering

variable {K L : Type} {f : K → L} {k : K}

/-- A code that is confused with none of a list is in the list exactly if its number is among the numbers. -/
theorem mem_map_iff {l : List K} (h : ∀ x ∈ l, f x = f k → x = k) : f k ∈ l.map f ↔ k ∈ l := by
  refine ⟨fun hk => ?_, List.mem_map_of_mem⟩
  obtain ⟨x, hx, he⟩ := List.mem_map.mp hk
  exact h x hx he ▸ hx

variable [DecidableEq K] [DecidableEq L]

/-- Its least index is that of its number. -/
theorem idxOf_map {l : List K} (h : ∀ x ∈ l, f x = f k → x = k) : (l.map f).idxOf (f k) = l.idxOf k := by
  induction l with
  | nil => rfl
  | cons x l ih =>
    obtain ⟨hx, hl⟩ := List.forall_mem_cons.mp h
    by_cases he : x = k
    · simp [he]
    · rw [List.map_cons, List.idxOf_cons_ne _ (mt hx he), List.idxOf_cons_ne _ he, ih hl]

variable {ks : Vector K 6}

/-- A key-down of numbers is the numbers of the key-down (R165). -/
theorem keysAfterDown_map (h : ∀ x ∈ ks.toList, f x = f k → x = k) :
    keysAfterDown (f k) (ks.map f) = (keysAfterDown k ks).map f := by
  unfold keysAfterDown
  rw [Vector.toList_map, apply_ite (Vector.map f)]
  refine if_congr (mem_map_iff h) rfl ?_
  simp

/-- A key-up of numbers is the numbers of the key-up (R166). -/
theorem keysAfterUp_map (nk : K) (h : ∀ x ∈ ks.toList, f x = f k → x = k) :
    keysAfterUp (f nk) (f k) (ks.map f) = (keysAfterUp nk k ks).map f := by
  unfold keysAfterUp
  rw [Vector.toList_map, apply_ite (Vector.map f)]
  refine if_congr (mem_map_iff h) ?_ rfl
  ext j hj
  simp only [idxOf_map h, Vector.getElem_ofFn, Vector.getElem_map, Fin.getElem_fin, apply_ite f, apply_dite f]

/-- A key byte's work on numbers is the numbers of its work on codes (R163). -/
theorem keysAfterCode_map {nk : K} (rel : Bool) (hnk : f k = f nk → k = nk)
    (h : ∀ x ∈ ks.toList, f x = f k → x = k) :
    keysAfterCode (f nk) (f k) rel (ks.map f) = (keysAfterCode nk k rel ks).map f := by
  unfold keysAfterCode
  rw [apply_ite (Vector.map f), apply_ite (Vector.map f)]
  exact if_congr ⟨hnk, congrArg f⟩ rfl (if_congr Iff.rfl (keysAfterUp_map nk h) (keysAfterDown_map h))

/-- A key byte brings in no code but its own and NOKEY. -/
theorem mem_of_mem_keysAfterCode {nk x : K} {rel : Bool} (h : x ∈ (keysAfterCode nk k rel ks).toList) :
    x = nk ∨ x = k ∨ x ∈ ks.toList := by
  rcases keysAfterCode_cases nk k rel ks with ⟨-, he⟩ | ⟨-, -, he⟩ | ⟨-, -, he⟩ <;> rw [he] at h
  · exact .inr (.inr h)
  · exact (mem_of_mem_keysAfterUp h).imp_right .inr
  · exact .inr (mem_of_mem_keysAfterDown h)

/-- Position in a list numbers its members without confusion. -/
theorem exists_numbering (l : List K) : ∃ g : K → Nat, ∀ x ∈ l, ∀ y ∈ l, g x = g y → x = y :=
  ⟨l.idxOf, fun _ hx _ _ he => (List.idxOf_inj hx).mp he⟩

end Numbering

/-- The table of numbers gives the number of the code that the table of codes gives. -/
theorem lookupCode_map {K L : Type} (f : K → L) (xlat : Vector K 256) (sc : Scancode) :
    lookupCode (xlat.map f) sc = f (lookupCode xlat sc) := by
  simp [lookupCode]

/-- A translation stands in the table. -/
theorem lookupCode_mem {K : Type} (xlat : Vector K 256) (sc : Scancode) : lookupCode xlat sc ∈ xlat.toList := by
  simp [lookupCode]

/-- A byte that is no modifier is a key-down or key-up of its translation, and changes nothing else (R163). -/
theorem exec_scByte_of_key {s : State} {b : Byte} (h : isModifier s.cfg (scancodeOf b) = false) :
    exec (.scByte b) s = .next { s with
      keys := keysAfterCode s.cfg.noKey (lookupCode s.cfg.xlat (scancodeOf b)) (releaseBit b) s.keys
      out := [], ret := .none, status := none } := by
  have hkey : decodeScancode b s.clearOutputs = changeKey (scancodeOf b) (releaseBit b) s.clearOutputs :=
    if_neg (by simp [h])
  exact congrArg Host.Outcome.next hkey

/-- Settles O57: the operations on key lists commute with the numbering. -/
theorem keyCodeIsParameter : Obligations.KeyCodeIsParameter := by
  intro K _ nk xlat ks codes
  refine ⟨exists_numbering codes, fun f s b hf hnk hxlat hks hmod => ?_⟩
  have hnk_mem : nk ∈ codes := List.mem_cons_self
  have hcode_mem : lookupCode xlat (scancodeOf b) ∈ codes :=
    List.mem_cons_of_mem _ (List.mem_append_left _ (lookupCode_mem xlat _))
  have hks_mem : ∀ x ∈ ks.toList, x ∈ codes := fun x hx => List.mem_cons_of_mem _ (List.mem_append_right _ hx)
  constructor
  · rw [exec_scByte_of_key hmod, hnk, hxlat, hks, lookupCode_map,
      keysAfterCode_map _ (hf _ hcode_mem _ hnk_mem) fun x hx => hf x (hks_mem x hx) _ hcode_mem]
  · intro x hx
    rcases mem_of_mem_keysAfterCode hx with rfl | rfl | hx
    · exact hnk_mem
    · exact hcode_mem
    · exact hks_mem x hx

end Sys2Proof.Scope

/-! The elements of the state and the operations that write them (10_state.md R10 to R21): one table, said once to be
complete, from which the lists of writers follow. -/

namespace Sys2Proof.Writers

open Sys2Proof.Machine Sys2Proof.Scope

/-! ## The table of writers -/

/-- The elements of the state that the lists of writers tell apart. -/
inductive Element where
  /-- The parameters of 00_scope.md R8, `XLAT` among them. -/
  | params
  /-- `INIT`, `CB`, `PIN`, the timer and the bus-signal interrupt: what `init` sets up. -/
  | setup
  /-- `CUR_ADDR` and `CUR_REG`. -/
  | current
  | nextAddr
  | nextReg
  | cap
  | capN
  /-- The number of unpacks so far (log 14). -/
  | freeCount
  | srqPending
  | ring
  | keys
  | mods

/-- The elements that an operation may write. -/
def writes : Instr → List Element
  | .init _ _ => [.setup, .current, .nextAddr, .nextReg, .capN, .srqPending, .ring, .keys, .mods]
  | .reset => [.capN]
  | .flush _ => [.capN]
  | .talk _ _ => [.nextAddr, .nextReg]
  | .srqPend => [.srqPending]
  | .tick => [.current, .nextReg]
  | .srq _ => [.nextAddr, .nextReg, .capN, .srqPending]
  | .eor _ => [.cap, .capN, .freeCount, .ring]
  | .decFrame => [.cap]
  | .onData _ => [.ring]
  | .kbdSink _ _ _ _ => [.ring]
  | .ringPut _ => [.ring]
  | .consume => [.ring, .keys, .mods]
  | .scByte _ => [.keys, .mods]
  | .scMod _ _ => [.mods]
  | .keyDown _ => [.keys]
  | .keyUp _ => [.keys]
  | _ => []

/-- An element is in `t` what it is in `s`. -/
def Kept (s t : State) : Element → Prop
  | .params => t.cfg = s.cfg
  | .setup => t.init = s.init ∧ t.cb = s.cb ∧ t.pin = s.pin ∧ t.timer = s.timer ∧ t.busIrq = s.busIrq
  | .current => t.curAddr = s.curAddr ∧ t.curReg = s.curReg
  | .nextAddr => t.nextAddr = s.nextAddr
  | .nextReg => t.nextReg = s.nextReg
  | .cap => t.cap = s.cap
  | .capN => t.capN = s.capN
  | .freeCount => t.freeCount = s.freeCount
  | .srqPending => t.srqPending = s.srqPending
  | .ring => t.ring = s.ring
  | .keys => t.keys = s.keys
  | .mods => t.mods = s.mods

/-- A raise writes no element (60_exceptions.md R181). -/
theorem raise_keeps (err : ErrorStatus) (s : State) (e : Element) : Kept s (raise err s) e := by
  cases e <;> simp [Kept]

/-- The table is complete: the effect of an operation leaves alone every element that the table does not give it. -/
theorem effect_keeps {i : Instr} {s t : State} {e : Element} (h : Effect s t i) (he : e ∉ writes i) : Kept s t e := by
  cases i with
  | cmdReset | cmdFlush | cmdTalk | cmdListen | encListen | capUnpack | advance =>
    obtain ⟨r, rfl⟩ := h
    cases e <;> simp [Kept]
  | decFrame =>
    obtain ⟨cap, r, rfl⟩ := h
    cases e <;> simp [writes, Kept] at he ⊢
  | init | reset | srqPend | tick | srq | kbdSink | keyStateRead =>
    obtain ⟨-, rfl⟩ := h
    cases e <;> simp [writes, Kept, beEnable, beClearCaptures] at he ⊢
  | talk =>
    obtain ⟨-, -, -, -, rfl⟩ := h
    cases e <;> simp [writes, Kept] at he ⊢
  | flush | listen =>
    obtain ⟨-, ws, rfl⟩ := h
    cases e <;> simp [writes, Kept] at he ⊢
  | eor =>
    obtain ⟨-, cap, n, os, ring, -, rfl⟩ := h
    cases e <;> simp [writes, Kept] at he ⊢
  | onData =>
    obtain ⟨os, ring, -, rfl⟩ := h
    cases e <;> simp [writes, Kept] at he ⊢
  | ringPut | scMod | keyDown | keyUp =>
    obtain rfl := h
    cases e <;> simp [writes, Kept] at he ⊢
  | scByte =>
    rw [Effect, decodeScancode_eq] at h
    obtain rfl := h
    cases e <;> simp [writes, Kept] at he ⊢
  | consume =>
    rcases h with ⟨-, ⟨-, rfl⟩ | ⟨b, rest, -, h⟩⟩
    · cases e <;> simp [Kept]
    · rw [decodeScancode_eq] at h
      obtain rfl := h
      cases e <;> simp [writes, Kept] at he ⊢

/-- A step keeps an element, or is the effect of an operation that the table gives the element. -/
theorem kept_or_written {i : Instr} {s t : State} (e : Element) (h : exec i s = .next t) :
    Kept s t e ∨ e ∈ writes i ∧ Effect s t i := by
  rcases exec_cases h with ⟨err, rfl⟩ | ⟨hE, -⟩
  · exact .inl (raise_keeps err s e)
  · by_cases he : e ∈ writes i
    · exact .inr ⟨he, hE⟩
    · exact .inl (effect_keeps hE he)

/-- A step of an operation leaves alone every element that the table does not give it. -/
theorem exec_keeps {i : Instr} {s t : State} {e : Element} (h : exec i s = .next t) (he : e ∉ writes i) :
    Kept s t e :=
  (kept_or_written e h).resolve_right fun hw => he hw.1

/-! ## The writers of each element, read off the table -/

section Columns

variable {i : Instr}

theorem params_not_mem_writes : .params ∉ writes i := by cases i <;> simp [writes]

theorem setup_mem_writes : .setup ∈ writes i ↔ ∃ p cb, i = .init p cb := by cases i <;> simp [writes]

theorem current_mem_writes : .current ∈ writes i ↔ i = .tick ∨ ∃ p cb, i = .init p cb := by
  cases i <;> simp [writes]

theorem nextAddr_mem_writes :
    .nextAddr ∈ writes i ↔ (∃ a r, i = .talk a r) ∨ (∃ ws, i = .srq ws) ∨ ∃ p cb, i = .init p cb := by
  cases i <;> simp [writes]

theorem nextReg_mem_writes :
    .nextReg ∈ writes i ↔
      i = .tick ∨ (∃ a r, i = .talk a r) ∨ (∃ ws, i = .srq ws) ∨ ∃ p cb, i = .init p cb := by
  cases i <;> simp [writes]

theorem cap_mem_writes : .cap ∈ writes i ↔ i = .decFrame ∨ ∃ ws, i = .eor ws := by cases i <;> simp [writes]

theorem capN_mem_writes :
    .capN ∈ writes i ↔ i = .reset ∨ (∃ a, i = .flush a) ∨ (∃ ws, i = .srq ws) ∨ (∃ ws, i = .eor ws) ∨
      ∃ p cb, i = .init p cb := by
  cases i <;> simp [writes]

theorem freeCount_mem_writes : .freeCount ∈ writes i ↔ ∃ ws, i = .eor ws := by cases i <;> simp [writes]

theorem srqPending_mem_writes :
    .srqPending ∈ writes i ↔ i = .srqPend ∨ (∃ ws, i = .srq ws) ∨ ∃ p cb, i = .init p cb := by
  cases i <;> simp [writes]

theorem ring_mem_writes :
    .ring ∈ writes i ↔ i = .consume ∨ (∃ b, i = .ringPut b) ∨ (∃ a r p n, i = .kbdSink a r p n) ∨
      (∃ res, i = .onData res) ∨ (∃ ws, i = .eor ws) ∨ ∃ p cb, i = .init p cb := by
  cases i <;> simp [writes]

theorem keys_mem_writes :
    .keys ∈ writes i ↔ i = .consume ∨ (∃ b, i = .scByte b) ∨ (∃ sc, i = .keyDown sc) ∨ (∃ sc, i = .keyUp sc) ∨
      ∃ p cb, i = .init p cb := by
  cases i <;> simp [writes]

theorem mods_mem_writes :
    .mods ∈ writes i ↔ i = .consume ∨ (∃ b, i = .scByte b) ∨ (∃ sc rel, i = .scMod sc rel) ∨
      ∃ p cb, i = .init p cb := by
  cases i <;> simp [writes]

end Columns

/-! ## The obligations on writers -/

/-- Settles O39. -/
theorem cursorWriters : Obligations.CursorWriters := by
  intro i s t h hinit
  refine ⟨fun htick => exec_keeps h (e := .current) ?_, fun htalk hsrq => exec_keeps h (e := .nextAddr) ?_,
    fun htick htalk hsrq => exec_keeps h (e := .nextReg) ?_⟩
  · simp [current_mem_writes, htick, hinit]
  · simp [nextAddr_mem_writes, htalk, hsrq, hinit]
  · simp [nextReg_mem_writes, htick, htalk, hsrq, hinit]

/-- Settles O40. -/
theorem captureWriters : Obligations.CaptureWriters := by
  intro i s t h heor
  refine ⟨fun hdec => exec_keeps h (e := .cap) ?_, exec_keeps h (e := .freeCount) ?_,
    fun hsrq hflush hreset hinit => exec_keeps h (e := .capN) ?_⟩
  · simp [cap_mem_writes, hdec, heor]
  · simp [freeCount_mem_writes, heor]
  · simp [capN_mem_writes, hsrq, hflush, hreset, hinit, heor]

/-- Settles O41: a raise shows a status, so what is left is each writer's effect. -/
theorem srqPendingWriters : Obligations.SrqPendingWriters := by
  intro i s t h hstatus
  rcases exec_cases h with ⟨err, rfl⟩ | ⟨hE, -⟩
  · simp at hstatus
  · refine ⟨?_, ?_, fun hsrq hquery hinit => effect_keeps (e := .srqPending) hE ?_⟩
    · rintro ⟨ws, rfl⟩
      obtain ⟨-, rfl⟩ := hE
      rfl
    · rintro (rfl | ⟨p, cb, rfl⟩) <;>
      · obtain ⟨-, rfl⟩ := hE
        rfl
    · simp [srqPending_mem_writes, hsrq, hquery, hinit]

/-- Once initialised, `init` has no effect but a raise (60_exceptions.md R181). -/
theorem not_effect_init {s t : State} {p : Pin} {cb : Callback} (hi : s.init = true) : ¬ Effect s t (.init p cb) := by
  rintro ⟨hno, -⟩
  simp [hi] at hno

/-- Once initialised, no operation writes what `init` set up. -/
theorem exec_keeps_setup {i : Instr} {s t : State} (hi : s.init = true) (h : exec i s = .next t) :
    Kept s t .setup := by
  rcases kept_or_written .setup h with hk | ⟨hw, hE⟩
  · exact hk
  · obtain ⟨p, cb, rfl⟩ := setup_mem_writes.mp hw
    exact absurd hE (not_effect_init hi)

/-- Only an `init` that raises nothing takes the machine from `INIT = 0` to `INIT = 1`. -/
theorem effect_of_initialised {i : Instr} {s t : State} (h : exec i s = .next t) (hs : s.init = false)
    (ht : t.init = true) : ∃ p cb, i = .init p cb ∧ Effect s t (.init p cb) := by
  rcases kept_or_written .setup h with ⟨hinit, -⟩ | ⟨hw, hE⟩
  · simp [hinit, hs] at ht
  · obtain ⟨p, cb, rfl⟩ := setup_mem_writes.mp hw
    exact ⟨p, cb, rfl, hE⟩

/-- Settles O44. -/
theorem initialisedForEver : Obligations.InitialisedForEver := by
  intro i s t h
  constructor
  · intro hs
    obtain ⟨hinit, hrest⟩ : Kept s t .setup := exec_keeps_setup hs h
    exact ⟨hinit.trans hs, hrest⟩
  · intro hs ht
    obtain ⟨p, cb, rfl, -, rfl⟩ := effect_of_initialised h hs ht
    exact ⟨p, cb, rfl, rfl, rfl⟩

/-- A step that goes on waits, or runs the operation that the next input decodes to. -/
theorem step_cases {s t : State} (h : step s = .next t) :
    t = s ∨ ∃ (i : Instr) (rest : List Packet), exec i { s with inputs := rest } = .next t := by
  cases hin : s.inputs with
  | nil =>
    rw [step_of_no_input hin] at h
    cases h
    exact .inl rfl
  | cons p rest =>
    obtain ⟨hok, herr⟩ := step_of_input hin
    cases hd : decode s.cfg p with
    | ok i => exact .inr ⟨i, rest, (hok i hd).symm.trans h⟩
    | error err =>
      rw [herr err hd] at h
      cases h

/-- Settles O45. -/
theorem parametersReadOnly : Obligations.ParametersReadOnly := by
  intro s t h
  rcases step_cases h with rfl | ⟨i, rest, hexec⟩
  · rfl
  · have hcfg : Kept { s with inputs := rest } t .params := exec_keeps hexec params_not_mem_writes
    exact hcfg

/-- Settles O35. -/
theorem powerOnState : Obligations.PowerOnState := ⟨rfl, rfl, rfl, rfl, rfl⟩

end Sys2Proof.Writers

/-! The invariant of Safety.lean is kept by every step (10_state.md R19, R20, R24, R25, 60_exceptions.md R189): what
each step does to each element that the invariant speaks of, and that this keeps the element's condition. -/

namespace Sys2Proof.Invariant

open Sys2Proof.Machine Sys2Proof.Scope Sys2Proof.Writers

/-! ## The key list by its slots (R25) -/

section KeyList

variable {K : Type}

/-- Slot `n` of a key list, with NOKEY after the last slot. -/
def slot (noKey : K) (ks : Vector K 6) (n : Nat) : K := if h : n < 6 then ks[n] else noKey

theorem slot_fin (noKey : K) (ks : Vector K 6) (i : Fin 6) : slot noKey ks i.val = ks[i] := dif_pos i.isLt

theorem slot_of_ge {noKey : K} {ks : Vector K 6} {n : Nat} (h : 6 ≤ n) : slot noKey ks n = noKey :=
  dif_neg (by omega)

/-- Only the six slots hold a code. -/
theorem lt_of_slot_ne {noKey : K} {ks : Vector K 6} {n : Nat} (h : slot noKey ks n ≠ noKey) : n < 6 := by
  by_contra hn
  exact h (slot_of_ge (by omega))

theorem slot_mem_of_ne {noKey : K} {ks : Vector K 6} {n : Nat} (h : slot noKey ks n ≠ noKey) :
    slot noKey ks n ∈ ks.toList := by
  have hn := lt_of_slot_ne h
  simp [slot, hn]

/-- The condition on key lists, with no bound on the slots to look at. -/
theorem keysOk_iff {noKey : K} {ks : Vector K 6} : KeysOk noKey ks ↔
    (∀ i j, slot noKey ks i = slot noKey ks j → slot noKey ks i ≠ noKey → i = j) ∧
      ∀ i j, i < j → slot noKey ks i = noKey → slot noKey ks j = noKey := by
  constructor
  · rintro ⟨hnodup, hcompact⟩
    constructor
    · intro i j he hne
      have hi := lt_of_slot_ne hne
      have hj := lt_of_slot_ne (he ▸ hne)
      have := hnodup ⟨i, hi⟩ ⟨j, hj⟩
      simp only [← slot_fin noKey] at this
      exact congrArg Fin.val (this he hne)
    · intro i j hij he
      by_contra hne
      have hj := lt_of_slot_ne hne
      have := hcompact ⟨i, by omega⟩ ⟨j, hj⟩ hij
      simp only [← slot_fin noKey] at this
      exact hne (this he)
  · rintro ⟨hnodup, hcompact⟩
    simp only [KeysOk, ← slot_fin noKey]
    exact ⟨fun i j he hne => Fin.ext (hnodup i j he hne), fun i j hij => hcompact i j hij⟩

theorem keysOk_replicate (noKey : K) : KeysOk noKey (Vector.replicate 6 noKey) := by
  simp [KeysOk]

variable [DecidableEq K] {noKey k : K} {ks : Vector K 6}

/-- Insertion puts the new code in slot 0 … -/
theorem slot_keysAfterDown_zero (h : k ∉ ks.toList) : slot noKey (keysAfterDown k ks) 0 = k := by
  simp [keysAfterDown, h, slot]

/-- … and moves every other one a slot further; the last one is lost. -/
theorem slot_keysAfterDown_succ (h : k ∉ ks.toList) (n : Nat) :
    slot noKey (keysAfterDown k ks) (n + 1) = if n < 5 then slot noKey ks n else noKey := by
  rw [keysAfterDown, if_neg h]
  split
  · interval_cases n <;> rfl
  · exact slot_of_ge (by omega)

/-- Removal: the slots from that of the removed code on move up one. -/
theorem slot_keysAfterUp (h : k ∈ ks.toList) (n : Nat) : slot noKey (keysAfterUp noKey k ks) n =
    slot noKey ks (if n < ks.toList.idxOf k then n else n + 1) := by
  have hidx : ks.toList.idxOf k < 6 := by simpa using List.idxOf_lt_length_iff.mpr h
  by_cases hn : n < 6
  · by_cases hlt : n < ks.toList.idxOf k <;> simp [keysAfterUp, h, slot, hn, hlt]
  · rw [slot_of_ge (by omega), if_neg (by omega), slot_of_ge (by omega)]

/-- A key-down keeps the list compact and without repeats. -/
theorem keysOk_keysAfterDown (hk : k ≠ noKey) (h : KeysOk noKey ks) : KeysOk noKey (keysAfterDown k ks) := by
  by_cases hmem : k ∈ ks.toList
  · rwa [keysAfterDown, if_pos hmem]
  · obtain ⟨hnodup, hcompact⟩ := keysOk_iff.mp h
    have hfresh : ∀ n, slot noKey ks n ≠ k := by
      intro n he
      exact hmem (he ▸ slot_mem_of_ne (he ▸ hk))
    have hzero := slot_keysAfterDown_zero (noKey := noKey) hmem
    have hsucc := slot_keysAfterDown_succ (noKey := noKey) hmem
    have hother : ∀ n, slot noKey (keysAfterDown k ks) (n + 1) ≠ k := by
      intro n
      rw [hsucc]
      split
      · exact hfresh n
      · exact hk.symm
    refine keysOk_iff.mpr ⟨fun i j he hne => ?_, fun i j hij he => ?_⟩
    · match i, j with
      | 0, 0 => rfl
      | 0, j + 1 => exact absurd (he.symm.trans hzero) (hother j)
      | i + 1, 0 => exact absurd (he.trans hzero) (hother i)
      | i + 1, j + 1 => grind
    · match i, j with
      | 0, _ => exact absurd (hzero.symm.trans he) hk
      | i + 1, j + 1 => grind

/-- A key-up closes the gap it makes. -/
theorem keysOk_keysAfterUp (h : KeysOk noKey ks) : KeysOk noKey (keysAfterUp noKey k ks) := by
  by_cases hmem : k ∈ ks.toList
  · obtain ⟨hnodup, hcompact⟩ := keysOk_iff.mp h
    simp only [keysOk_iff, slot_keysAfterUp hmem]
    refine ⟨fun i j he hne => ?_, fun i j hij he => hcompact _ _ ?_ he⟩
    · have := hnodup _ _ he hne
      split_ifs at this <;> omega
    · split_ifs <;> omega
  · rwa [keysAfterUp, if_neg hmem]

/-- Whatever a byte translates to, the key list stays compact and without repeats. -/
theorem keysOk_keysAfterCode (rel : Bool) (h : KeysOk noKey ks) : KeysOk noKey (keysAfterCode noKey k rel ks) := by
  rcases keysAfterCode_cases noKey k rel ks with ⟨-, he⟩ | ⟨-, -, he⟩ | ⟨hk, -, he⟩ <;> rw [he]
  · exact h
  · exact keysOk_keysAfterUp h
  · exact keysOk_keysAfterDown hk h

end KeyList

/-! ## What a step after `init` does to each element -/

section Elements

variable {i : Instr} {s t : State}

/-- The current address is kept, or the next one is taken over (R141). -/
theorem curAddr_cases (hi : s.init = true) (h : exec i s = .next t) :
    t.curAddr = s.curAddr ∨ t.curAddr = s.nextAddr := by
  rcases kept_or_written .current h with ⟨haddr, -⟩ | ⟨hw, hE⟩
  · exact .inl haddr
  · rcases current_mem_writes.mp hw with rfl | ⟨p, cb, rfl⟩
    · obtain ⟨-, rfl⟩ := hE
      exact .inr rfl
    · exact absurd hE (not_effect_init hi)

/-- The next address is kept, a checked argument of `talk` (R123), or the successor of R140. -/
theorem nextAddr_cases (hi : s.init = true) (h : exec i s = .next t) :
    t.nextAddr = s.nextAddr ∨ (∃ a, 2 ≤ a ∧ a ≤ 15 ∧ t.nextAddr = BitVec.ofNat 4 a) ∨
      t.nextAddr = advanceAddr s.nextAddr := by
  rcases kept_or_written .nextAddr h with hk | ⟨hw, hE⟩
  · exact .inl hk
  · rcases nextAddr_mem_writes.mp hw with ⟨a, r, rfl⟩ | ⟨ws, rfl⟩ | ⟨p, cb, rfl⟩
    · obtain ⟨-, hlo, hhi, -, rfl⟩ := hE
      exact .inr (.inl ⟨a, hlo, hhi, rfl⟩)
    · obtain ⟨-, rfl⟩ := hE
      exact .inr (.inr rfl)
    · exact absurd hE (not_effect_init hi)

/-- A scancode byte leaves the key list, or enters its translation in it. -/
theorem decodeScancode_keys (b : Byte) (s : State) : (decodeScancode b s).keys = s.keys ∨
    ∃ k rel, (decodeScancode b s).keys = keysAfterCode s.cfg.noKey k rel s.keys := by
  unfold decodeScancode
  split
  · exact .inl rfl
  · exact .inr ⟨_, _, rfl⟩

/-- The key list is kept, or takes one key code in or out (R163). -/
theorem keys_cases (hi : s.init = true) (h : exec i s = .next t) :
    t.keys = s.keys ∨ ∃ k rel, t.keys = keysAfterCode s.cfg.noKey k rel s.keys := by
  rcases kept_or_written .keys h with hk | ⟨hw, hE⟩
  · exact .inl hk
  · rcases keys_mem_writes.mp hw with rfl | ⟨b, rfl⟩ | ⟨sc, rfl⟩ | ⟨sc, rfl⟩ | ⟨p, cb, rfl⟩
    · rcases hE with ⟨-, ⟨-, rfl⟩ | ⟨b, rest, -, rfl⟩⟩
      · exact .inl rfl
      · exact decodeScancode_keys b { s.clearOutputs with ring := rest }
    · obtain rfl := hE
      exact decodeScancode_keys b s.clearOutputs
    · obtain rfl := hE
      exact .inr ⟨_, _, rfl⟩
    · obtain rfl := hE
      exact .inr ⟨_, _, rfl⟩
    · exact absurd hE (not_effect_init hi)

/-- A modifier byte writes none of the four flags (R19, 43_scancode_decoder.md R164). -/
theorem untriggered_modsAfter (c : Params) (sc : Scancode) (rel : Bool) (m : ModFlags) :
    untriggered (modsAfter c sc rel m) = untriggered m := by
  rw [modsAfter_eq]
  rfl

/-- A scancode byte writes none of the four flags (R163). -/
theorem untriggered_decodeScancode (b : Byte) (s : State) :
    untriggered (decodeScancode b s).mods = untriggered s.mods := by
  unfold decodeScancode
  split
  · exact untriggered_modsAfter _ _ _ _
  · rfl

/-- After `init` the four flags without a trigger are kept. -/
theorem untriggered_kept (hi : s.init = true) (h : exec i s = .next t) :
    untriggered t.mods = untriggered s.mods := by
  rcases kept_or_written .mods h with hk | ⟨hw, hE⟩
  · exact congrArg untriggered hk
  · rcases mods_mem_writes.mp hw with rfl | ⟨b, rfl⟩ | ⟨sc, rel, rfl⟩ | ⟨p, cb, rfl⟩
    · rcases hE with ⟨-, ⟨-, rfl⟩ | ⟨b, rest, -, rfl⟩⟩
      · rfl
      · exact untriggered_decodeScancode b { s.clearOutputs with ring := rest }
    · obtain rfl := hE
      exact untriggered_decodeScancode b s.clearOutputs
    · obtain rfl := hE
      exact untriggered_modsAfter _ _ _ _
    · exact absurd hE (not_effect_init hi)

/-- The decoder does not read or write the ring: the byte is its operand. -/
theorem decodeScancode_ring (b : Byte) (s : State) : (decodeScancode b s).ring = s.ring := by
  rw [decodeScancode_eq]

/-- After `init` a bounded ring stays bounded (R20). -/
theorem ring_bounded (hi : s.init = true) (hcap : 1 ≤ s.cfg.ringCap) (hring : s.ring.length ≤ s.cfg.ringCap)
    (h : exec i s = .next t) : t.ring.length ≤ s.cfg.ringCap := by
  rcases kept_or_written .ring h with hk | ⟨hw, hE⟩
  · exact (congrArg List.length hk).trans_le hring
  · rcases ring_mem_writes.mp hw with
      rfl | ⟨b, rfl⟩ | ⟨a, r, p, n, rfl⟩ | ⟨res, rfl⟩ | ⟨ws, rfl⟩ | ⟨p, cb, rfl⟩
    · rcases hE with ⟨-, ⟨-, rfl⟩ | ⟨b, rest, hbytes, rfl⟩⟩
      · exact hring
      · rw [decodeScancode_ring]
        simp [hbytes] at hring ⊢
        omega
    · obtain rfl := hE
      exact ringAfterPut_length hcap hring
    · obtain ⟨-, rfl⟩ := hE
      exact kbdSink_length a r (p.take n) s.clearOutputs hcap hring
    · obtain ⟨os, ring, hd, rfl⟩ := hE
      exact hd.bounded hcap hring
    · obtain ⟨-, cap, n, os, ring, hd, rfl⟩ := hE
      exact hd.bounded hcap hring
    · exact absurd hE (not_effect_init hi)

end Elements

/-! ## The invariant -/

/-- R8: the ring has room for a byte. -/
theorem one_le_ringCap {c : Params} (h : c.wf = true) : 1 ≤ c.ringCap := by
  simp [Params.wf] at h
  omega

/-- R8: the first address polled is valid. -/
theorem two_le_initAddr {c : Params} (h : c.wf = true) : 2 ≤ c.initAddr.toNat := by
  simp [Params.wf] at h
  omega

/-- The rotation stays among the valid addresses (R140). -/
theorem two_le_advanceAddr (a : Addr) : 2 ≤ (advanceAddr a).toNat := by
  unfold advanceAddr
  split
  · decide
  · bv_omega

/-- The cursor stays valid (R24). -/
theorem cursorOk_of_exec {i : Instr} {s t : State} (hi : s.init = true) (hc : s.CursorOk)
    (h : exec i s = .next t) : t.CursorOk := by
  obtain ⟨hcur, hnext⟩ := hc
  constructor
  · rcases curAddr_cases hi h with he | he <;> rwa [he]
  · rcases nextAddr_cases hi h with he | ⟨a, hlo, hhi, he⟩ | he <;> rw [he]
    · exact hnext
    · simpa [Nat.mod_eq_of_lt (show a < 16 by omega)] using hlo
    · exact two_le_advanceAddr _

/-- What `init` sets up meets the invariant (10_state.md R26). -/
theorem initialise_inv {s : State} (p : Pin) (cb : Callback) (hp : s.cfg.wf = true) : (s.initialise p cb).Inv where
  params := hp
  cursor _ := ⟨two_le_initAddr hp, two_le_initAddr hp⟩
  keys _ := keysOk_replicate s.cfg.noKey
  ring _ := Nat.zero_le _
  mods _ := by simp [ModFlags.none, untriggered]
  sources _ := ⟨rfl, rfl⟩

/-- Each condition after `init` is kept by every operation. -/
theorem inv_of_exec_of_init {i : Instr} {s t : State} (hi : s.init = true) (hs : s.Inv) (h : exec i s = .next t) :
    t.Inv := by
  have hcfg : t.cfg = s.cfg := exec_keeps (e := .params) h params_not_mem_writes
  obtain ⟨-, -, -, htimer, hirq⟩ : Kept s t .setup := exec_keeps_setup hi h
  constructor
  case params => rw [hcfg]; exact hs.params
  case cursor => exact fun _ => cursorOk_of_exec hi (hs.cursor hi) h
  case keys =>
    intro _
    rw [hcfg]
    rcases keys_cases hi h with he | ⟨k, rel, he⟩ <;> rw [he]
    · exact hs.keys hi
    · exact keysOk_keysAfterCode rel (hs.keys hi)
  case ring => rw [hcfg]; exact fun _ => ring_bounded hi (one_le_ringCap hs.params) (hs.ring hi) h
  case mods => rw [untriggered_kept hi h]; exact fun _ => hs.mods hi
  case sources => rw [hcfg, htimer, hirq]; exact fun _ => hs.sources hi

/-- Every operation keeps the invariant: before `init` only `init` gives it anything to say. -/
theorem inv_of_exec {i : Instr} {s t : State} (hs : s.Inv) (h : exec i s = .next t) : t.Inv := by
  cases hi : s.init with
  | true => exact inv_of_exec_of_init hi hs h
  | false =>
    have hcfg : t.cfg = s.cfg := exec_keeps (e := .params) h params_not_mem_writes
    cases ht : t.init with
    | false => exact inv_of_uninit (hcfg ▸ hs.params) ht
    | true =>
      obtain ⟨p, cb, -, -, rfl⟩ := effect_of_initialised h hi ht
      exact initialise_inv p cb hs.params

/-- The inputs that wait are no part of the invariant. -/
theorem inv_withInputs {s : State} (hs : s.Inv) (inputs : List Packet) : ({ s with inputs := inputs } : State).Inv :=
  ⟨hs.params, hs.cursor, hs.keys, hs.ring, hs.mods, hs.sources⟩

/-- Settles O37: a step waits, or runs one operation. -/
theorem stepKeepsInv : Obligations.StepKeepsInv := by
  intro s t hs h
  rcases step_cases h with rfl | ⟨i, rest, hexec⟩
  · exact hs
  · exact inv_of_exec (inv_withInputs hs rest) hexec

end Sys2Proof.Invariant

/-! The transmit queue, the captures and the poll target over one step (20_memory.md R46, R57 to R61): which operations
push and what they push, which leave the backend without a captured bit, and which target a tick polls. -/

namespace Sys2Proof.Memory

open Sys2Proof.Machine

/-! ## Pushes and the transmit queue (R46, R57) -/

/-- The operations that push words on `TXQ`. -/
def pushes : Instr → Bool
  | .tick | .flush _ | .listen _ _ _ => true
  | _ => false

theorem pushes_iff {i : Instr} :
    pushes i = true ↔ i = .tick ∨ (∃ a, i = .flush a) ∨ ∃ a r bs, i = .listen a r bs := by
  cases i <;> simp [pushes]

@[simp] theorem pushesOf_nil : pushesOf [] = [] := rfl

@[simp] theorem pushesOf_append (os os' : List Output) : pushesOf (os ++ os') = pushesOf os ++ pushesOf os' :=
  List.filterMap_append

@[simp] theorem pushesOf_map_push (ws : List Word) : pushesOf (ws.map .push) = ws := by
  simp [pushesOf, List.filterMap_map]

@[simp] theorem pushesOf_map_pop (ws : List Word) : pushesOf (ws.map .pop) = [] := by
  simp [pushesOf]

/-- A dispatch makes callbacks, never pushes (42_polling_events.md R146). -/
theorem pushesOf_dispatched {s : State} {os : List Output} {ring : List Byte} (h : Dispatched s os ring) :
    pushesOf os = [] := by
  rcases h.callbacks with rfl | ⟨a, r, p, n, rfl⟩
  · rfl
  · rfl

/-- A completion sequence, and what a dispatch emits after it, hold no push (60_exceptions.md R188). -/
theorem pushesOf_completion (ws : List Word) {os : List Output} (h : pushesOf os = []) :
    pushesOf (.forceFlush :: ws.map .pop ++ .restart :: os) = [] := by
  change pushesOf (ws.map .pop ++ .restart :: os) = []
  rw [pushesOf_append, pushesOf_map_pop]
  exact h

/-- What a tick, a `flush` or a `listen` pushes is what it adds at the end of `TXQ`. -/
theorem txq_of_pushes {i : Instr} {s t : State} (hi : pushes i = true) (h : Effect s t i) :
    t.be.txq = s.be.txq ++ pushesOf t.out := by
  rcases pushes_iff.mp hi with rfl | ⟨a, rfl⟩ | ⟨a, r, bs, rfl⟩
  · obtain ⟨-, rfl⟩ := h
    rfl
  · obtain ⟨-, w, rfl⟩ := h
    rfl
  · obtain ⟨-, ws, rfl⟩ := h
    simp

/-- Every other operation emits no push, and but for `init` it leaves `TXQ` alone. -/
theorem silent_of_not_pushes {i : Instr} {s t : State} (hi : pushes i = false) (h : Effect s t i) :
    pushesOf t.out = [] ∧ ((∀ p cb, i ≠ .init p cb) → t.be.txq = s.be.txq) := by
  cases i with
  | tick | flush | listen => cases hi
  | cmdReset | cmdFlush | cmdTalk | cmdListen | encListen | capUnpack | advance =>
    obtain ⟨r, rfl⟩ := h
    exact ⟨rfl, fun _ => rfl⟩
  | decFrame =>
    obtain ⟨cap, r, rfl⟩ := h
    exact ⟨rfl, fun _ => rfl⟩
  | init p cb =>
    obtain ⟨-, rfl⟩ := h
    exact ⟨rfl, fun hinit => absurd rfl (hinit p cb)⟩
  | reset | srqPend | kbdSink | keyStateRead =>
    obtain ⟨-, rfl⟩ := h
    exact ⟨rfl, fun _ => rfl⟩
  | talk =>
    obtain ⟨-, -, -, -, rfl⟩ := h
    exact ⟨rfl, fun _ => rfl⟩
  | srq ws =>
    obtain ⟨-, rfl⟩ := h
    exact ⟨pushesOf_completion ws rfl, fun _ => rfl⟩
  | eor ws =>
    obtain ⟨-, cap, n, os, ring, hd, rfl⟩ := h
    exact ⟨pushesOf_completion ws (pushesOf_dispatched hd), fun _ => rfl⟩
  | onData =>
    obtain ⟨os, ring, hd, rfl⟩ := h
    exact ⟨pushesOf_dispatched hd, fun _ => rfl⟩
  | ringPut | scMod | keyDown | keyUp =>
    obtain rfl := h
    exact ⟨rfl, fun _ => rfl⟩
  | scByte =>
    rw [Effect, decodeScancode_eq] at h
    obtain rfl := h
    exact ⟨rfl, fun _ => rfl⟩
  | consume =>
    rcases h with ⟨-, ⟨-, rfl⟩ | ⟨b, rest, -, h⟩⟩
    · exact ⟨rfl, fun _ => rfl⟩
    · rw [decodeScancode_eq] at h
      obtain rfl := h
      exact ⟨rfl, fun _ => rfl⟩

/-- Settles O46: a raise emits nothing, a pushing operation queues what it pushes, any other is silent. -/
theorem pushesReachQueueInOrder : Obligations.PushesReachQueueInOrder := by
  intro i s t h
  rcases exec_cases h with ⟨err, rfl⟩ | ⟨hE, -⟩
  · simp
  · cases hi : pushes i with
    | true => exact ⟨fun _ => txq_of_pushes hi hE, fun _ => pushes_iff.mp hi⟩
    | false =>
      obtain ⟨hout, htxq⟩ := silent_of_not_pushes hi hE
      rw [hout, List.append_nil]
      exact ⟨htxq, fun hne => absurd rfl hne⟩

/-! ## Captures (R58, R61) -/

/-- Settles O49: a raise shows a status, so what is left is the effect of each of the five operations. -/
theorem capturesCleared : Obligations.CapturesCleared := by
  intro i s t h hstatus
  rcases exec_cases h with ⟨err, rfl⟩ | ⟨hE, -⟩
  · simp at hstatus
  · constructor
    · rintro (⟨p, cb, rfl⟩ | rfl | ⟨a, rfl⟩ | ⟨ws, rfl⟩)
      · obtain ⟨-, rfl⟩ := hE
        exact ⟨rfl, rfl, rfl⟩
      · obtain ⟨-, rfl⟩ := hE
        exact ⟨rfl, rfl, rfl⟩
      · obtain ⟨-, w, rfl⟩ := hE
        exact ⟨rfl, rfl, rfl⟩
      · obtain ⟨-, rfl⟩ := hE
        exact ⟨rfl, rfl, rfl⟩
    · rintro ⟨ws, rfl⟩
      obtain ⟨-, cap, n, os, ring, -, rfl⟩ := hE
      exact ⟨rfl, rfl⟩

/-! ## The poll target of a tick (R60) -/

/-- The fields of an addressed command byte do not overlap, so it is their weighted sum (30_encoding.md R71). -/
theorem addressedByte_toNat (a : Addr) (kind : BitVec 2) (r : Reg) :
    (addressedByte a kind r).toNat = a.toNat * 16 + kind.toNat * 4 + r.toNat := by
  have ha := a.isLt
  have hk := kind.isLt
  have hr := r.isLt
  have hkind : kind.toNat <<< 2 ||| r.toNat = kind.toNat <<< 2 + r.toNat :=
    (Nat.shiftLeft_add_eq_or_of_lt hr _).symm
  have haddr : a.toNat <<< 4 ||| (kind.toNat <<< 2 + r.toNat) = a.toNat <<< 4 + (kind.toNat <<< 2 + r.toNat) :=
    (Nat.shiftLeft_add_eq_or_of_lt (by rw [Nat.shiftLeft_eq]; omega) _).symm
  have hwidths : (addressedByte a kind r).toNat = a.toNat <<< 4 ||| (kind.toNat <<< 2 ||| r.toNat) := by
    simp (disch := omega) [addressedByte, Nat.shiftLeft_eq, Nat.or_assoc, Nat.mod_eq_of_lt]
  rw [hwidths, hkind, haddr, Nat.shiftLeft_eq, Nat.shiftLeft_eq]
  omega

/-- A command word is its byte above 24 zero bits (30_encoding.md R70). -/
theorem commandWord_toNat (cb : Byte) : (commandWord cb).toNat = cb.toNat * 2 ^ 24 := by
  have := cb.isLt
  simp [commandWord, Nat.shiftLeft_eq]
  omega

theorem cmdTalkWord_toNat (a : Addr) (r : Reg) :
    (cmdTalkWord a r).toNat = (a.toNat * 16 + 12 + r.toNat) * 2 ^ 24 := by
  rw [cmdTalkWord, commandWord_toNat, addressedByte_toNat]
  rfl

/-- A host operation whose checks all pass runs its body (41_bus_master_ops.md R126). -/
theorem hostOp_of_checks {checks : List (Option ErrorStatus)} {body : State → State} {s : State}
    (h : ∀ c ∈ checks, c = none) : hostOp checks body s = .next (body s.clearOutputs) := by
  have hpass : checks.findSome? id = none := List.findSome?_eq_none_iff.mpr h
  simp [hostOp, hpass]

/-- The state with its next poll target set, the outputs cleared. -/
def targeting (a r : Nat) (s : State) : State :=
  { s.clearOutputs with nextAddr := BitVec.ofNat 4 a, nextReg := BitVec.ofNat 2 r }

/-- The state after a poll of its next target: the Talk word is pushed, and register 0 is next. -/
def polled (s : State) : State :=
  { s.clearOutputs with
    curAddr := s.nextAddr, curReg := s.nextReg, nextReg := 0
    be := { s.be with txq := s.be.txq ++ [cmdTalkWord s.nextAddr s.nextReg] }
    out := [.push (cmdTalkWord s.nextAddr s.nextReg)] }

/-- With `INIT = 1` and valid arguments `talk` records the target and does nothing else (41_bus_master_ops.md R123). -/
theorem exec_talk {s : State} {a r : Nat} (hi : s.init = true) (hlo : 2 ≤ a) (hhi : a ≤ 15) (hr : r ≤ 3) :
    exec (.talk a r) s = .next (targeting a r s) := by
  change execTalk a r s = _
  unfold execTalk
  refine hostOp_of_checks ?_
  simp [hi, checkAddress, checkRegister]
  omega

/-- With `INIT = 1` a tick polls the next target (42_polling_events.md R141). -/
theorem exec_tick {s : State} (hi : s.init = true) : exec .tick s = .next (polled s) := by
  change execTick s = _
  rw [execTick, handler_init s hi]
  rfl

/-- An operation that goes on is the first step of a run. -/
theorem runOps_cons {i : Instr} {is : List Instr} {s t : State} (h : exec i s = .next t) :
    runOps (i :: is) s = runOps is t := by
  simp [runOps, h]

/-- Settles O23: the second `talk` replaces the target of the first, and the tick that polls it puts the register
back to 0. -/
theorem lastTalkIsPolled : Obligations.LastTalkIsPolled := by
  intro s a r a' r' hi hlo hhi hr hlo' hhi' hr'
  have haddr : (BitVec.ofNat 4 a').toNat = a' := Nat.mod_eq_of_lt (by omega)
  have hreg : (BitVec.ofNat 2 r').toNat = r' := Nat.mod_eq_of_lt (by omega)
  have hrun : runOps [.talk a r, .talk a' r', .tick] s = .next (polled (targeting a' r' s)) := calc
    _ = runOps [.talk a' r', .tick] (targeting a r s) := runOps_cons (exec_talk hi hlo hhi hr)
    _ = runOps [.tick] (targeting a' r' s) := runOps_cons (exec_talk (s := targeting a r s) hi hlo' hhi' hr')
    _ = .next (polled (targeting a' r' s)) := runOps_cons (exec_tick (s := targeting a' r' s) hi)
  refine ⟨_, polled (polled (targeting a' r' s)), _, cmdTalkWord (BitVec.ofNat 4 a') 0,
    hrun, rfl, ?_, haddr, hreg, exec_tick hi, rfl, ?_⟩
  · change (cmdTalkWord (BitVec.ofNat 4 a') (BitVec.ofNat 2 r')).toNat = _
    rw [cmdTalkWord_toNat, haddr, hreg]
  · rw [cmdTalkWord_toNat, haddr]
    rfl

end Sys2Proof.Memory

/-! The encodings (30_encoding.md): decode and encode agree on every operation, the command bytes are partitioned, and
every scancode byte is read. The layers: the bytes by their fields, then what the decoder accepts in each format. -/

namespace Sys2Proof.Encoding

open Sys2Proof.Machine Sys2Proof.Memory

/-! ## Bytes by their fields (R71, R77) -/

/-- A concatenation is told by its two fields. -/
theorem append_eq_iff {m n : Nat} {x : BitVec m} {y : BitVec n} {z : BitVec (m + n)} :
    x ++ y = z ↔ z.extractLsb' n m = x ∧ z.extractLsb' 0 n = y := by
  constructor
  · rintro rfl
    exact ⟨BitVec.extractLsb'_append_eq_left, BitVec.extractLsb'_append_eq_right⟩
  · rintro ⟨rfl, rfl⟩
    rw [BitVec.extractLsb'_append_extractLsb'_eq_extractLsb' (Nat.zero_add n).symm, BitVec.extractLsb'_eq_self]

/-- A Talk or Listen byte is told by its address, kind and register. -/
theorem addressedByte_eq_iff {a : Addr} {kind : BitVec 2} {r : Reg} {cb : Byte} : addressedByte a kind r = cb ↔
    cb.extractLsb' 4 4 = a ∧ cb.extractLsb' 2 2 = kind ∧ cb.extractLsb' 0 2 = r := by
  have hcb := cb.isLt
  have ha := a.isLt
  have hkind := kind.isLt
  have hr := r.isLt
  simp only [← BitVec.toNat_inj, addressedByte_toNat, BitVec.extractLsb'_toNat, Nat.shiftRight_eq_div_pow]
  omega

theorem addressedByte_fields (a : Addr) (kind : BitVec 2) (r : Reg) :
    (addressedByte a kind r).extractLsb' 4 4 = a ∧ (addressedByte a kind r).extractLsb' 2 2 = kind ∧
      (addressedByte a kind r).extractLsb' 0 2 = r := addressedByte_eq_iff.mp rfl

/-- A Flush byte is told by its address and its nibble. -/
theorem flushByte_eq_iff {a nibble : BitVec 4} {cb : Byte} :
    flushByte a nibble = cb ↔ cb.extractLsb' 4 4 = a ∧ cb.extractLsb' 0 4 = nibble := by
  rw [flushByte, ← BitVec.setWidth_append_eq_shiftLeft_setWidth_or, BitVec.setWidth_eq, append_eq_iff]

/-- The kind of a byte stands in its low nibble. -/
theorem kind_of_nibble {cb : Byte} {nibble : BitVec 4} (h : cb.extractLsb' 0 4 = nibble) :
    cb.extractLsb' 2 2 = nibble.extractLsb' 2 2 := by
  rw [← h, BitVec.extractLsb'_extractLsb'_of_le (by decide)]

/-- A scancode byte is told by its release flag and its scancode. -/
theorem scancodeByte_eq_iff {release : Bool} {sc : Scancode} {b : Byte} :
    scancodeByte release sc = b ↔ releaseBit b = release ∧ scancodeOf b = sc := by
  have hrelease : b.extractLsb' 7 1 = BitVec.ofBool release ↔ releaseBit b = release := by
    rw [releaseBit, BitVec.getLsbD_eq_extractLsb']
    generalize b.extractLsb' 7 1 = bit
    revert bit release
    decide
  rw [scancodeByte, ← BitVec.setWidth_append_eq_shiftLeft_setWidth_or, BitVec.setWidth_eq, append_eq_iff, hrelease,
    scancodeOf, BitVec.setWidth_eq_extractLsb' (by decide)]

theorem scancodeByte_fields (release : Bool) (sc : Scancode) :
    releaseBit (scancodeByte release sc) = release ∧ scancodeOf (scancodeByte release sc) = sc :=
  scancodeByte_eq_iff.mp rfl

/-! ## Command words by their byte (R70) -/

/-- A command word is its byte and 24 zero bits. -/
theorem commandWord_eq_append (cb : Byte) : commandWord cb = cb ++ 0#24 := by
  simpa [commandWord] using
    (BitVec.setWidth_append_eq_shiftLeft_setWidth_or (w'' := 32) (b := cb) (b' := 0#24)).symm

/-- The command word of a word's top byte is the word with its low 24 bits cleared. -/
theorem commandWord_extractLsb' (w : Word) : commandWord (w.extractLsb' 24 8) = w &&& 0xFF000000#32 := by
  rw [commandWord_eq_append, append_eq_iff, BitVec.extractLsb'_and, BitVec.extractLsb'_and]
  constructor
  · exact BitVec.and_allOnes
  · exact BitVec.and_zero

/-- The decoder reads a command word by its byte. -/
theorem decodeCommandWord_append (c : Params) (cb : Byte) :
    decodeCommandWord c (cb ++ 0#24) = decodeCommandByte c cb :=
  congrArg (decodeCommandByte c) BitVec.extractLsb'_append_eq_left

theorem decodeCommandWord_commandWord (c : Params) (cb : Byte) :
    decodeCommandWord c (commandWord cb) = decodeCommandByte c cb := by
  rw [commandWord_eq_append, decodeCommandWord_append]

/-! ## What the decoder accepts -/

/-- An input decodes to what its format reads, if that is well formed. -/
theorem decode_eq_ok_iff {c : Params} {p : Packet} {i : Instr} :
    decode c p = .ok i ↔ decodeFormat c p = .ok i ∧ i.wellFormed c = true := by
  unfold decode
  cases decodeFormat c p with
  | error e => simp
  | ok j => cases hj : j.wellFormed c <;> simpa [hj] using fun h : j = i => h ▸ hj

/-- What a format rejects is rejected for the same reason. -/
theorem decode_of_error {c : Params} {p : Packet} {e : DecodeError} (h : decodeFormat c p = .error e) :
    decode c p = .error e := by
  simp [decode, h]

/-! ## Command bytes, row by row (R79) -/

section Command

variable {c : Params} {cb : Byte}

theorem decodeCommandByte_talk (h : cb.extractLsb' 2 2 = kindTalk) :
    decodeCommandByte c cb = .ok (.cmdTalk (cb.extractLsb' 4 4) (cb.extractLsb' 0 2)) := if_pos h

theorem decodeCommandByte_listen (h : cb.extractLsb' 2 2 = kindListen) :
    decodeCommandByte c cb = .ok (.cmdListen (cb.extractLsb' 4 4) (cb.extractLsb' 0 2)) := by
  simp [decodeCommandByte, h, kindTalk, kindListen]

theorem decodeCommandByte_reset (c : Params) : decodeCommandByte c 0#8 = .ok .cmdReset := rfl

/-- An admissible nibble (00_scope.md R8) is of neither kind. -/
theorem flushNibble_kind (hc : c.wf = true) :
    c.flushNibble.extractLsb' 2 2 ≠ kindListen ∧ c.flushNibble.extractLsb' 2 2 ≠ kindTalk := by
  simp only [Params.wf, Bool.and_eq_true, bne_iff_ne] at hc
  obtain ⟨⟨⟨⟨⟨hnibble, -⟩, -⟩, -⟩, -⟩, -⟩ := hc
  exact hnibble

theorem decodeCommandByte_flush (hc : c.wf = true) (h0 : cb ≠ 0#8) (h : cb.extractLsb' 0 4 = c.flushNibble) :
    decodeCommandByte c cb = .ok (.cmdFlush (cb.extractLsb' 4 4)) := by
  have hkind := flushNibble_kind hc
  rw [← kind_of_nibble h] at hkind
  simp [decodeCommandByte, hkind, h0, h]

theorem decodeCommandByte_undefined (h3 : cb.extractLsb' 3 1 = 0#1) (h0 : cb ≠ 0#8)
    (h : cb.extractLsb' 0 4 ≠ c.flushNibble) : decodeCommandByte c cb = .error .undefinedCommandByte := by
  -- bit 3 is the upper bit of the kind, and both kinds have it set
  have hkind : (cb.extractLsb' 2 2).extractLsb' 1 1 = 0#1 := by
    rw [← h3]
    ext i hi
    obtain rfl := Nat.lt_one_iff.mp hi
    simp
  have htalk : cb.extractLsb' 2 2 ≠ kindTalk := fun ht => absurd (ht ▸ hkind) (by decide)
  have hlisten : cb.extractLsb' 2 2 ≠ kindListen := fun hl => absurd (hl ▸ hkind) (by decide)
  simp [decodeCommandByte, htalk, hlisten, h0, h]

/-- A command byte that is read is the byte of its operation. -/
theorem encode_of_decodeCommandByte {i : Instr} (h : decodeCommandByte c cb = .ok i) :
    encode c i = .cw (commandWord cb) := by
  unfold decodeCommandByte at h
  split_ifs at h with htalk hlisten h0 hflush
  · cases h
    exact congrArg (Packet.cw <| commandWord ·) (addressedByte_eq_iff.mpr ⟨rfl, htalk, rfl⟩)
  · cases h
    exact congrArg (Packet.cw <| commandWord ·) (addressedByte_eq_iff.mpr ⟨rfl, hlisten, rfl⟩)
  · cases h
    rw [h0]
    rfl
  · cases h
    exact congrArg (Packet.cw <| commandWord ·) (flushByte_eq_iff.mpr ⟨rfl, hflush⟩)

end Command

/-! ## Listen frames (R72 to R74) -/

/-- The header gives the length back (R73, R81). -/
theorem listenHeader_length {n : Nat} (h : n ≤ listenMax) : (listenHeader n + 1#8).toNat / 8 = n := by
  have hn : n ≤ 8 := h
  simp only [listenHeader_eq, BitVec.toNat_add, BitVec.toNat_ofNat]
  omega

/-- The listen frames that are read are the encodings of payloads of at most eight bytes, and are read as these. -/
theorem decodeListenFrame_eq_ok_iff {ws : List Word} {i : Instr} : decodeListenFrame ws = .ok i ↔
    ∃ p : List Byte, p.length ≤ listenMax ∧ encodeListen p = ws ∧ i = .encListen p := by
  constructor
  · intro h
    unfold decodeListenFrame at h
    split at h
    · cases h
    · next hd data _ =>
      dsimp only at h
      split_ifs at h with hheader hws
      cases h
      have hlen : (hd + 1#8).toNat / 8 ≤ listenMax := Nat.not_lt.mp (not_or.mp hheader).2
      exact ⟨_, (List.length_take_le _ _).trans hlen, hws, rfl⟩
  · rintro ⟨p, hp, rfl, rfl⟩
    simp only [decodeListenFrame, (encodeListen_bytes p).1, listenBytes, List.cons_append, listenHeader_length hp,
      List.take_left]
    simp [hp]

/-! ## Scancode bytes, class by class (R77, R80) -/

/-- The operation of a key, by the release flag. -/
def keyOperation (release : Bool) (sc : Scancode) : Instr :=
  if release then .keyUp sc else .keyDown sc

section Scancode

variable {c : Params} {b : Byte} {release : Bool} {sc : Scancode}

theorem keyOperation_wellFormed_iff :
    (keyOperation release sc).wellFormed c = true ↔ isModifier c sc = false ∧ translate c sc ≠ c.noKey := by
  cases release <;> simp [keyOperation, Instr.wellFormed]

theorem encode_keyOperation : encode c (keyOperation release sc) = .sb (scancodeByte release sc) := by
  cases release <;> rfl

/-- A key's operation is the change of that key, by its release flag (R165, R166). -/
theorem exec_keyOperation (s : State) :
    exec (keyOperation release sc) s = .next (changeKey sc release s.clearOutputs) := by
  cases release <;> rfl

theorem decodeScancodeByte_modifier (hm : isModifier c (scancodeOf b) = true) :
    decodeScancodeByte c b = .ok (.scMod (scancodeOf b) (releaseBit b)) := if_pos hm

theorem decodeScancodeByte_noKey (hm : isModifier c (scancodeOf b) = false)
    (hk : translate c (scancodeOf b) = c.noKey) : decodeScancodeByte c b = .ok (.scByte b) := by
  simp [decodeScancodeByte, hm, hk]

theorem decodeScancodeByte_key (hm : isModifier c (scancodeOf b) = false)
    (hk : translate c (scancodeOf b) ≠ c.noKey) :
    decodeScancodeByte c b = .ok (keyOperation (releaseBit b) (scancodeOf b)) := by
  cases hr : releaseBit b <;> simp [decodeScancodeByte, keyOperation, hm, hk, hr]

/-- A key's operation is read back from its byte. -/
theorem decodeFormat_encode_keyOperation (h : (keyOperation release sc).wellFormed c = true) :
    decodeFormat c (encode c (keyOperation release sc)) = .ok (keyOperation release sc) := by
  obtain ⟨hm, hk⟩ := keyOperation_wellFormed_iff.mp h
  obtain ⟨hrelease, hsc⟩ := scancodeByte_fields release sc
  rw [encode_keyOperation, decodeFormat, decodeScancodeByte_key (hsc.symm ▸ hm) (hsc.symm ▸ hk), hrelease, hsc]

/-- A byte that is read is the byte of its operation, unless it is no modifier and has no key; then it is SC.BYTE of
itself (log 11). -/
theorem encode_of_decodeScancodeByte {i : Instr} (h : decodeScancodeByte c b = .ok i) : encode c i = .sb b ∨
    (i = .scByte b ∧ isModifier c (scancodeOf b) = false ∧ translate c (scancodeOf b) = c.noKey) := by
  have hfields : scancodeByte (releaseBit b) (scancodeOf b) = b := scancodeByte_eq_iff.mpr ⟨rfl, rfl⟩
  cases hm : isModifier c (scancodeOf b) with
  | true =>
    cases (decodeScancodeByte_modifier hm).symm.trans h
    exact .inl (congrArg Packet.sb hfields)
  | false =>
    by_cases hk : translate c (scancodeOf b) = c.noKey
    · cases (decodeScancodeByte_noKey hm hk).symm.trans h
      exact .inr ⟨rfl, rfl, hk⟩
    · cases (decodeScancodeByte_key hm hk).symm.trans h
      exact .inl (encode_keyOperation.trans (congrArg Packet.sb hfields))

/-- SC.BYTE of a modifier byte is SC.MOD of its fields (43_scancode_decoder.md R163). -/
theorem exec_scByte_of_modifier {s : State} (hm : isModifier s.cfg (scancodeOf b) = true) :
    exec (.scByte b) s = exec (.scMod (scancodeOf b) (releaseBit b)) s :=
  congrArg Host.Outcome.next (if_pos hm)

end Scancode

/-! ## Lines of the script (R83) -/

/-- A number that is a value of the width fits. -/
theorem fitBits_toNat {w : Nat} (v : BitVec w) : fitBits w v.toNat = .ok v := by
  rw [fitBits, if_pos v.isLt, BitVec.ofNat_toNat, BitVec.setWidth_eq]

theorem fitAll_toNat {w : Nat} (vs : List (BitVec w)) : fitAll w (vs.map BitVec.toNat) = .ok vs := by
  induction vs with
  | nil => rfl
  | cons v vs ih => simp [fitAll, fitBits_toNat, ih]

/-! ## Decode and encode agree -/

/-- Every well-formed operation is read back from its encoding, in the format of its row. -/
theorem decodeFormat_encode {c : Params} {i : Instr} (hc : c.wf = true) (hi : i.wellFormed c = true) :
    decodeFormat c (encode c i) = .ok i := by
  cases i with
  | cmdReset => rfl
  | cmdTalk a r =>
    obtain ⟨ha, hkind, hr⟩ := addressedByte_fields a kindTalk r
    exact (decodeCommandWord_commandWord c _).trans (by rw [decodeCommandByte_talk hkind, ha, hr])
  | cmdListen a r =>
    obtain ⟨ha, hkind, hr⟩ := addressedByte_fields a kindListen r
    exact (decodeCommandWord_commandWord c _).trans (by rw [decodeCommandByte_listen hkind, ha, hr])
  | cmdFlush a =>
    obtain ⟨ha, hnibble⟩ := flushByte_eq_iff.mp (Eq.refl (flushByte a c.flushNibble))
    have h0 : flushByte a c.flushNibble ≠ 0#8 := bne_iff_ne.mp hi
    exact (decodeCommandWord_commandWord c _).trans (by rw [decodeCommandByte_flush hc h0 hnibble, ha])
  | encListen p => exact decodeListenFrame_eq_ok_iff.mpr ⟨p, of_decide_eq_true hi, rfl, rfl⟩
  | scMod sc release =>
    obtain ⟨hrelease, hsc⟩ := scancodeByte_fields release sc
    have hm : isModifier c (scancodeOf (scancodeByte release sc)) = true := hsc.symm ▸ hi
    exact (decodeScancodeByte_modifier hm).trans (by rw [hrelease, hsc])
  | keyDown sc => exact decodeFormat_encode_keyOperation (release := false) hi
  | keyUp sc => exact decodeFormat_encode_keyOperation (release := true) hi
  | reset | srqPend | tick | consume | keyStateRead | decFrame | init | flush | talk | onData => rfl
  | listen a r bs => exact congrArg (Except.map (Instr.listen a r ·)) (fitAll_toNat bs)
  | srq ws => exact congrArg (Except.map Instr.srq) (fitAll_toNat ws)
  | eor ws => exact congrArg (Except.map Instr.eor) (fitAll_toNat ws)
  | capUnpack ws => exact congrArg (Except.map Instr.capUnpack) (fitAll_toNat ws)
  | scByte b => exact congrArg (Except.map Instr.scByte) (fitBits_toNat b)
  | advance a => exact congrArg (Except.map Instr.advance) (fitBits_toNat a)
  | ringPut b => exact congrArg (Except.map Instr.ringPut) (fitBits_toNat b)
  | kbdSink a r p n => simp [encode, decodeFormat, decodeLine, fitBits_toNat, fitAll_toNat]

/-- Settles O50: what the format reads back is the operation, and it is well formed. -/
theorem decodeInvertsEncode : Obligations.DecodeInvertsEncode := fun _ _ hc hi =>
  decode_eq_ok_iff.mpr ⟨decodeFormat_encode hc hi, hi⟩

/-- Settles O51: what is read from a format is encoded by the fields that were read. -/
theorem encodeInvertsDecode : Obligations.EncodeInvertsDecode := by
  intro c i
  refine ⟨fun w h => ?_, fun ws h => ?_, fun b h => ?_⟩
  · rw [← commandWord_extractLsb']
    exact encode_of_decodeCommandByte (decode_eq_ok_iff.mp h).1
  · obtain ⟨p, -, rfl, rfl⟩ := decodeListenFrame_eq_ok_iff.mp (decode_eq_ok_iff.mp h).1
    rfl
  · exact encode_of_decodeScancodeByte (decode_eq_ok_iff.mp h).1

/-- Settles O52: the first four rows are read as well-formed operations, the last is an error of the format. -/
theorem commandBytesPartitioned : Obligations.CommandBytesPartitioned := by
  intro c cb hc
  have hread : decodeFormat c (.cw (cb ++ 0#24)) = decodeCommandByte c cb := decodeCommandWord_append c cb
  have accept {i : Instr} (h : decodeCommandByte c cb = .ok i) (hi : i.wellFormed c = true) :
      decode c (.cw (cb ++ 0#24)) = .ok i := decode_eq_ok_iff.mpr ⟨hread.trans h, hi⟩
  refine ⟨fun h => accept (decodeCommandByte_talk h) rfl, fun h => accept (decodeCommandByte_listen h) rfl,
    fun h => accept (h ▸ decodeCommandByte_reset c) rfl, ?_, ?_⟩
  · intro h0 h
    refine accept (decodeCommandByte_flush hc h0 h) ?_
    rw [Instr.wellFormed, flushByte_eq_iff.mpr ⟨rfl, h⟩]
    exact bne_iff_ne.mpr h0
  · intro h3 h0 h
    exact decode_of_error (hread.trans (decodeCommandByte_undefined h3 h0 h))

/-- Settles O53: by the class of the byte, modifiers first. -/
theorem scancodeBytesDecode : Obligations.ScancodeBytesDecode := by
  intro s b
  cases hm : isModifier s.cfg (scancodeOf b) with
  | true =>
    exact ⟨_, decode_eq_ok_iff.mpr ⟨decodeScancodeByte_modifier hm, hm⟩, (exec_scByte_of_modifier hm).symm⟩
  | false =>
    by_cases hk : translate s.cfg (scancodeOf b) = s.cfg.noKey
    · exact ⟨_, decode_eq_ok_iff.mpr ⟨decodeScancodeByte_noKey hm hk, rfl⟩, rfl⟩
    · have hwf := keyOperation_wellFormed_iff (release := releaseBit b).mpr ⟨hm, hk⟩
      exact ⟨_, decode_eq_ok_iff.mpr ⟨decodeScancodeByte_key hm hk, hwf⟩,
        (exec_keyOperation s).trans (Scope.exec_scByte_of_key hm).symm⟩

/-- Settles O26: the loop of R160 would read past the payload. -/
theorem kbdSinkPastPayloadFaults : Obligations.KbdSinkPastPayloadFaults := fun _ _ _ _ _ h =>
  if_neg (Nat.not_le.mpr h)

/-- Settles O56: nine closed words, evaluated. -/
theorem sampleWordsDecode : Obligations.SampleWordsDecode := by
  unfold Obligations.SampleWordsDecode
  decide

end Sys2Proof.Encoding

/-! The Frame Codec's own rows (40_frame_codec.md): the command words by their fields, the listen frame and the
unpacked capture byte by byte, and the in-place frame decode, which gives the payload of a captured frame back. -/

namespace Sys2Proof.FrameCodec

open Sys2Proof.Machine

/-! ## The command words (R100 to R103) -/

theorem extractLsb'_commandWord_low (cb : Byte) : (commandWord cb).extractLsb' 0 24 = 0#24 := by
  rw [Encoding.commandWord_eq_append, BitVec.extractLsb'_append_eq_right]

/-- The command byte stands in bits 31:24, so its fields are fields of the word (30_encoding.md R70). -/
theorem extractLsb'_commandWord_high (cb : Byte) (i n : Nat) :
    (commandWord cb).extractLsb' (24 + i) n = cb.extractLsb' i n := by
  rw [Encoding.commandWord_eq_append, BitVec.extractLsb'_append_eq_of_le (Nat.le_add_right 24 i),
    Nat.add_sub_cancel_left]

/-- The fields of a Talk or Listen word (30_encoding.md R71). -/
theorem addressedWord_fields (a : Addr) (kind : BitVec 2) (r : Reg) :
    (commandWord (addressedByte a kind r)).extractLsb' 28 4 = a ∧
      (commandWord (addressedByte a kind r)).extractLsb' 26 2 = kind ∧
      (commandWord (addressedByte a kind r)).extractLsb' 24 2 = r ∧
      (commandWord (addressedByte a kind r)).extractLsb' 0 24 = 0#24 := by
  obtain ⟨haddr, hkind, hreg⟩ := Encoding.addressedByte_fields a kind r
  exact ⟨(extractLsb'_commandWord_high _ 4 4).trans haddr, (extractLsb'_commandWord_high _ 2 2).trans hkind,
    (extractLsb'_commandWord_high _ 0 2).trans hreg, extractLsb'_commandWord_low _⟩

/-- The fields of a Flush word (30_encoding.md R71). -/
theorem cmdFlushWord_fields (nibble : BitVec 4) (a : Addr) :
    (cmdFlushWord nibble a).extractLsb' 28 4 = a ∧ (cmdFlushWord nibble a).extractLsb' 24 4 = nibble ∧
      (cmdFlushWord nibble a).extractLsb' 0 24 = 0#24 := by
  obtain ⟨haddr, hnibble⟩ := Encoding.flushByte_eq_iff.mp (Eq.refl (flushByte a nibble))
  exact ⟨(extractLsb'_commandWord_high _ 4 4).trans haddr, (extractLsb'_commandWord_high _ 0 4).trans hnibble,
    extractLsb'_commandWord_low _⟩

/-- Settles O1: the fields of the word are those of its command byte. -/
theorem commandWordFields : Obligations.CommandWordFields := fun s a r =>
  ⟨rfl, ⟨cmdFlushWord s.cfg.flushNibble a, rfl, cmdFlushWord_fields s.cfg.flushNibble a⟩,
    ⟨cmdTalkWord a r, rfl, addressedWord_fields a kindTalk r⟩,
    ⟨cmdListenWord a r, rfl, addressedWord_fields a kindListen r⟩⟩

/-! ## The listen frame (R104) -/

/-- ENC.LISTEN returns the words of the frame and changes nothing else; above 8 bytes it is not defined. -/
theorem exec_encListen {p : List Byte} (h : p.length ≤ listenMax) (s : State) : exec (.encListen p) s = .next { s with
    out := []
    ret := .words (encodeListen p)
    status := none } := if_pos h

/-- Settles O2: packing the frame's bytes in words loses none of them. -/
theorem listenFrameBytes : Obligations.ListenFrameBytes := by
  intro s p hp
  obtain ⟨hbytes, hcount⟩ := encodeListen_bytes p
  refine ⟨encodeListen p, exec_encListen hp s, hcount, ?_⟩
  rw [hbytes, hcount, listenBytes, listenHeader_eq, List.cons_append]

/-! ## The unpacked capture (R105) -/

/-- The bytes of the words: byte `i` is byte `i mod 4`, most significant first, of word `i div 4`. -/
theorem flatMap_bytesOf_getElem? (ws : List Word) (i : Nat) : (ws.flatMap bytesOf)[i]? =
    (ws[i / 4]?).map fun w => w.extractLsb' (24 - 8 * (i % 4)) 8 := by
  induction ws generalizing i with
  | nil => simp
  | cons w ws ih =>
    rw [List.flatMap_cons]
    rcases Nat.lt_or_ge i 4 with hi | hi
    · rw [List.getElem?_append_left hi]
      interval_cases i <;> rfl
    · obtain ⟨j, rfl⟩ := Nat.exists_eq_add_of_le' hi
      rw [List.getElem?_append_right hi, bytesOf_length, Nat.add_sub_cancel, ih, Nat.add_mod_right,
        Nat.add_div_right j (by decide), List.getElem?_cons_succ]

/-- Settles O4: the default keeps the first nine of the words' bytes. -/
theorem captureUnpackBytes : Obligations.CaptureUnpackBytes := by
  intro s ws
  refine ⟨_, Scope.exec_capUnpack ws s, unpackBytes_length s.cfg.unpack ws, fun hall => ?_⟩
  have hlen : (unpackBytes s.cfg.unpack ws).length = min 9 (4 * ws.length) := by
    rw [hall, unpackBytes, List.length_take, flatMap_bytesOf_length]
    rfl
  refine ⟨hlen, fun i hi => ?_⟩
  have hword : i / 4 < ws.length := by omega
  refine ⟨ws[i / 4], List.getElem?_eq_getElem hword, ?_⟩
  rw [hall, unpackBytes, List.getElem?_take_of_lt (by unfold capBytes; omega), flatMap_bytesOf_getElem?,
    List.getElem?_eq_getElem hword]
  rfl

/-! ## The decode of a list of bytes (R106) -/

/-- The shift is in place: no byte is added or lost. -/
theorem decodeBytes_length (bs : List Byte) : (decodeBytes bs).2.length = bs.length := by
  unfold decodeBytes
  split
  · rfl
  next b rest hdrop =>
    rw [List.length_append, shiftBytes_length, ← hdrop, ← List.length_append, List.takeWhile_append_dropWhile]

/-- Bytes whose first non-zero one has index `k`: the zeros before it stay, the rest is shifted, and the frame is
the shift less its last byte. -/
theorem decodeBytes_of_start {bs : List Byte} {k : Nat} {b : Byte} (hb : bs[k]? = some b) (hne : b ≠ 0#8)
    (hz : ∀ i < k, bs[i]? = some 0#8) : decodeBytes bs =
      (.frame (shiftBytes (bs.drop k)).dropLast, List.replicate k 0#8 ++ shiftBytes (bs.drop k)) := by
  obtain ⟨hk, hget⟩ := List.getElem?_eq_some_iff.mp hb
  have htake : bs.take k = List.replicate k 0#8 := by
    refine List.eq_replicate_iff.mpr ⟨List.length_take_of_le hk.le, fun x hx => ?_⟩
    obtain ⟨i, hi, rfl⟩ := List.mem_take_iff_getElem.mp hx
    exact (List.getElem?_eq_some_iff.mp (hz i (by omega))).2
  have hdrop : bs.drop k = b :: bs.drop (k + 1) := by rw [List.drop_eq_getElem_cons hk, hget]
  have hsplit : bs = List.replicate k 0#8 ++ b :: bs.drop (k + 1) := by
    rw [← htake, ← hdrop, List.take_append_drop]
  rw [hdrop, ← decodeBytes_start k b _ hne, ← hsplit]

theorem replicate_append_getElem?_of_lt {k i : Nat} (hi : i < k) (bs : List Byte) :
    (List.replicate k 0#8 ++ bs)[i]? = some 0#8 := by
  rw [List.getElem?_append_left (by simpa using hi), List.getElem?_replicate_of_lt hi]

theorem replicate_append_getElem?_add (k j : Nat) (bs : List Byte) :
    (List.replicate k 0#8 ++ bs)[k + j]? = bs[j]? := by
  simp [List.getElem?_append_right]

/-- A byte after the decode: it is shifted if it is not before the start. -/
theorem replicate_append_shiftBytes_getElem? (bs : List Byte) (k i : Nat) :
    (List.replicate k 0#8 ++ shiftBytes (bs.drop k))[i]? =
      if i < k then some 0#8 else (bs[i]?).map fun b : Byte => (b <<< 1) ||| (bs.getD (i + 1) 0#8 >>> 7) := by
  split
  next hi => exact replicate_append_getElem?_of_lt hi _
  next hi =>
    obtain ⟨j, rfl⟩ := Nat.exists_eq_add_of_le (Nat.le_of_not_lt hi)
    rw [replicate_append_getElem?_add, shiftBytes_getElem?]
    simp [List.getD_eq_getElem?_getD, Nat.add_assoc]

/-! ## The decode of the capture buffer (R106) -/

section Capture

variable {s : State}

theorem captured_length (s : State) : s.captured.length = s.capN.val := by
  have := s.capN.isLt
  simp [State.captured]
  omega

/-- The captured bytes are those of `CAP` below `CAP_N`. -/
theorem captured_getElem? {i : Fin 9} (hi : i.val < s.capN.val) : s.captured[i.val]? = some s.cap[i] := by
  simp [State.captured, hi]

/-- There is no captured byte at `CAP_N` or above. -/
theorem captured_getElem?_of_le {i : Nat} (hi : s.capN.val ≤ i) : s.captured[i]? = none :=
  List.getElem?_eq_none ((captured_length s).trans_le hi)

/-- The carry out of a byte: 0 after the last captured byte. -/
theorem captured_getD_shiftRight (s : State) (i : Nat) :
    s.captured.getD i 0#8 >>> 7 = if i < s.capN.val then s.cap.toList.getD i 0#8 >>> 7 else 0#8 := by
  rw [List.getD_eq_getElem?_getD, State.captured, List.getElem?_take]
  split
  · rw [List.getD_eq_getElem?_getD]
  · rfl

/-- The buffer after a decode: the decoded bytes over those of `CAP`. -/
theorem decodeCapture_cap_getElem (s : State) (i : Fin 9) :
    s.decodeCapture.2.cap[i] = ((decodeBytes s.captured).2[i.val]?).getD s.cap[i] := by
  simp [State.decodeCapture]

theorem decodeCapture_cap_getElem? {i : Nat} (hi : i < s.capN.val) :
    s.decodeCapture.2.cap[i]? = (decodeBytes s.captured).2[i]? := by
  have hlt : i < (decodeBytes s.captured).2.length := by rwa [decodeBytes_length, captured_length]
  have h9 : i < 9 := by omega
  have hcap := decodeCapture_cap_getElem s ⟨i, h9⟩
  rw [List.getElem?_eq_getElem hlt] at hcap
  rw [List.getElem?_eq_getElem hlt, Vector.getElem?_eq_getElem h9]
  exact congrArg some hcap

/-- DEC.FRAME returns the result of the decode and changes `CAP` only. -/
theorem exec_decFrame (s : State) : exec .decFrame s = .next { s with
    cap := s.decodeCapture.2.cap
    out := []
    ret := .frame (decodeBytes s.captured).1
    status := none } := rfl

/-- With no non-zero captured byte there is no frame, and the buffer stays. -/
theorem decodeCapture_of_zeros (h : ∀ i : Fin 9, i.val < s.capN.val → s.cap[i] = 0#8) :
    (decodeBytes s.captured).1 = .noFrame ∧ s.decodeCapture.2.cap = s.cap := by
  have hzeros : ∀ b ∈ s.captured, b = 0#8 := by
    intro b hb
    obtain ⟨i, hi⟩ := List.mem_iff_getElem?.mp hb
    obtain ⟨hlt, -⟩ := List.getElem?_eq_some_iff.mp hi
    have hn : i < s.capN.val := captured_length s ▸ hlt
    have hcap := captured_getElem? (s := s) (i := ⟨i, by omega⟩) hn
    exact (Option.some.inj (hi.symm.trans hcap)).trans (h _ hn)
  have hdec := decodeBytes_zeros s.captured hzeros
  refine ⟨congrArg Prod.fst hdec, Vector.ext fun i hi => ?_⟩
  refine (decodeCapture_cap_getElem s ⟨i, hi⟩).trans ?_
  rw [hdec]
  rcases Nat.lt_or_ge i s.capN.val with hn | hn
  · rw [captured_getElem? hn]
    rfl
  · rw [captured_getElem?_of_le hn]
    rfl

section Start

variable {start : Fin 9} (hstart : start.val < s.capN.val) (hne : s.cap[start] ≠ 0#8)
  (hbefore : ∀ i : Fin 9, i < start → s.cap[i] = 0#8)

include hstart hne hbefore

/-- The decode of the captured bytes by the index of the first non-zero one. -/
theorem decodeBytes_captured : decodeBytes s.captured =
    (.frame (shiftBytes (s.captured.drop start)).dropLast,
      List.replicate start 0#8 ++ shiftBytes (s.captured.drop start)) :=
  decodeBytes_of_start (captured_getElem? hstart) hne fun i hi =>
    (captured_getElem? (i := ⟨i, by omega⟩) (hi.trans hstart)).trans (congrArg some (hbefore _ hi))

/-- A byte of the buffer after the decode: it takes the carry if it is captured and not before the start. -/
theorem decodeCapture_cap_of_start (i : Fin 9) : s.decodeCapture.2.cap[i] =
    if start ≤ i ∧ i.val < s.capN.val then
      (s.cap[i] <<< 1) ||| (if i.val + 1 < s.capN.val then (s.cap.toList.getD (i.val + 1) 0#8) >>> 7 else 0#8)
    else s.cap[i] := by
  rw [decodeCapture_cap_getElem, decodeBytes_captured hstart hne hbefore, replicate_append_shiftBytes_getElem?,
    captured_getD_shiftRight]
  rcases lt_or_ge i start with hi | hi
  · rw [if_pos (Fin.lt_def.mp hi), if_neg (not_and_of_not_left _ hi.not_ge), hbefore i hi]
    rfl
  rw [if_neg (Fin.le_def.mp hi).not_gt]
  rcases lt_or_ge i.val s.capN.val with hn | hn
  · rw [captured_getElem? hn, if_pos (And.intro hi hn)]
    rfl
  · rw [captured_getElem?_of_le hn, if_neg (not_and_of_not_right (start ≤ i) hn.not_gt)]
    rfl

/-- The payload is the buffer after the decode, from the start to the last captured byte, which is left out. -/
theorem decodeBytes_payload : ∃ p, (decodeBytes s.captured).1 = .frame p ∧ p.length = s.capN.val - start.val - 1 ∧
    ∀ j, j < p.length → p[j]? = s.decodeCapture.2.cap[start.val + j]? := by
  have hdec := decodeBytes_captured hstart hne hbefore
  have hlen : (shiftBytes (s.captured.drop start)).dropLast.length = s.capN.val - start.val - 1 := by
    rw [List.length_dropLast, shiftBytes_length, List.length_drop, captured_length]
  refine ⟨_, congrArg Prod.fst hdec, hlen, fun j hj => ?_⟩
  calc (shiftBytes (s.captured.drop start)).dropLast[j]?
    _ = (shiftBytes (s.captured.drop start))[j]? := by
      rw [List.dropLast_eq_take, List.getElem?_take_of_lt (by simpa using hj)]
    _ = (List.replicate start.val 0#8 ++ shiftBytes (s.captured.drop start))[start.val + j]? :=
      (replicate_append_getElem?_add _ _ _).symm
    _ = (decodeBytes s.captured).2[start.val + j]? := by rw [hdec]
    _ = s.decodeCapture.2.cap[start.val + j]? := (decodeCapture_cap_getElem? (by omega)).symm

end Start

end Capture

/-- Settles O5: without a start nothing moves; with one, the buffer and the payload by their bytes. -/
theorem frameDecodeInPlace : Obligations.FrameDecodeInPlace := fun s =>
  ⟨_, _, exec_decFrame s, decodeCapture_of_zeros, fun _ hstart hne hbefore =>
    ⟨decodeCapture_cap_of_start hstart hne hbefore, decodeBytes_payload hstart hne hbefore⟩⟩

/-! ## Frame9 and its decode (R108) -/

/-- The low bit of a byte, moved to the top. -/
theorem lowBit_shiftLeft (x : Byte) : (x.setWidth 1).setWidth 8 <<< 7 = (x &&& 1#8) <<< 7 := by
  apply BitVec.eq_of_getLsbD_eq
  intro i hi
  interval_cases i <;> simp

/-- A byte split over two, its low bit in front of the second, is put together by the shift with the carry. -/
theorem shiftLeft_carried (c : BitVec 1) (b : Byte) :
    (((c.setWidth 8 <<< 7) ||| (b >>> 1)) <<< 1) ||| (b.setWidth 1).setWidth 8 = b := by
  apply BitVec.eq_of_getLsbD_eq
  intro i hi
  interval_cases i <;> simp

/-- The low seven bits of the byte that begins a regrouped payload: its first bits, or the tail. -/
def leadBits (p : List Byte) (t : BitVec 7) : Byte := p.head?.elim (t.setWidth 8) (· >>> 1)

theorem carriedBytes_length (c : BitVec 1) (p : List Byte) (t : BitVec 7) :
    (carriedBytes c p t).length = p.length + 1 := by
  induction p generalizing c with
  | nil => rfl
  | cons b bs ih => exact congrArg Nat.succ (ih _)

/-- The first byte has the carry in front. -/
theorem carriedBytes_head? (c : BitVec 1) (p : List Byte) (t : BitVec 7) :
    (carriedBytes c p t).head? = some ((c.setWidth 8 <<< 7) ||| leadBits p t) := by
  cases p with
  | nil => rfl
  | cons b bs => rfl

/-- After a payload byte, the rest follows its low bit. -/
theorem carriedBytes_drop {c : BitVec 1} {p : List Byte} {t : BitVec 7} {j : Nat} {x : Byte} (hx : p[j]? = some x) :
    (carriedBytes c p t).drop (j + 1) = carriedBytes (x.setWidth 1) (p.drop (j + 1)) t := by
  induction p generalizing c j with
  | nil => cases hx
  | cons b bs ih =>
    cases j with
    | zero =>
      cases hx
      rfl
    | succ j => exact ih hx

theorem leadBits_shiftRight (p : List Byte) (t : BitVec 7) : leadBits p t >>> 7 = 0#8 := by
  apply BitVec.eq_of_toNat_eq
  cases p with
  | nil =>
    have := t.isLt
    simp [leadBits, Nat.shiftRight_eq_div_pow]
    omega
  | cons b bs =>
    have := b.isLt
    simp [leadBits, Nat.shiftRight_eq_div_pow]
    omega

/-- The low seven bits leave the top bit to the carry. -/
theorem carry_or_leadBits_shiftRight (c : BitVec 1) (p : List Byte) (t : BitVec 7) :
    ((c.setWidth 8 <<< 7) ||| leadBits p t) >>> 7 = c.setWidth 8 := by
  rw [BitVec.ushiftRight_or_distrib, leadBits_shiftRight, BitVec.or_zero]
  revert c
  decide

/-- The shift with the carry undoes the regrouping. -/
theorem shiftBytes_carriedBytes (c : BitVec 1) (p : List Byte) (t : BitVec 7) :
    (shiftBytes (carriedBytes c p t)).dropLast = p := by
  induction p generalizing c with
  | nil => rfl
  | cons b bs ih =>
    obtain ⟨rest, hrest⟩ := List.head?_eq_some_iff.mp (carriedBytes_head? (b.setWidth 1) bs t)
    have hne : shiftBytes (carriedBytes (b.setWidth 1) bs t) ≠ [] :=
      List.ne_nil_of_length_pos (by rw [shiftBytes_length, carriedBytes_length]; omega)
    rw [carriedBytes, hrest, shiftBytes, carry_or_leadBits_shiftRight, shiftLeft_carried, ← hrest,
      List.dropLast_cons_of_ne_nil hne, ih (b.setWidth 1)]

/-- A byte of the regrouped payload after the first: the low bit of one byte, then the first bits of the next. -/
theorem carriedBytes_getElem?_succ {p : List Byte} {j : Nat} {x : Byte} (hx : p[j]? = some x) (c : BitVec 1)
    (t : BitVec 7) : (carriedBytes c p t)[j + 1]? = some (((x &&& 1#8) <<< 7) ||| leadBits (p.drop (j + 1)) t) := by
  rw [← List.head?_drop, carriedBytes_drop hx, carriedBytes_head?, lowBit_shiftLeft]

theorem frame9_length (k : Nat) (p : List Byte) (t : BitVec 7) : (frame9 k p t).length = k + p.length + 1 := by
  rw [frame9, List.length_append, List.length_replicate, carriedBytes_length, Nat.add_assoc]

theorem frame9_getElem?_add (k j : Nat) (p : List Byte) (t : BitVec 7) :
    (frame9 k p t)[k + j]? = (carriedBytes 1#1 p t)[j]? :=
  replicate_append_getElem?_add k j _

/-- The byte with the start bit. -/
theorem frame9_getElem?_start (k : Nat) (p : List Byte) (t : BitVec 7) :
    (frame9 k p t)[k]? = some (0x80#8 ||| leadBits p t) := by
  have h := frame9_getElem?_add k 0 p t
  rwa [← List.head?_eq_getElem?, carriedBytes_head?] at h

/-- The start bit is the first bit that is set, so the decode finds the payload. -/
theorem decodeBytes_frame9 (k : Nat) (p : List Byte) (t : BitVec 7) :
    (decodeBytes (frame9 k p t)).1 = .frame p := by
  obtain ⟨rest, hrest⟩ := List.head?_eq_some_iff.mp (carriedBytes_head? 1#1 p t)
  have hstart : ((1#1).setWidth 8 <<< 7) ||| leadBits p t ≠ 0#8 := fun h => by
    have hcarry := carry_or_leadBits_shiftRight 1#1 p t
    rw [h] at hcarry
    exact absurd hcarry (by decide)
  rw [frame9, hrest, decodeBytes_start k _ _ hstart, ← hrest, shiftBytes_carriedBytes]

/-- Settles O6: the bytes before the start bit, with it and after it; then the decode undoes the regrouping. -/
theorem frameDecodeInvertsFrame9 : Obligations.FrameDecodeInvertsFrame9 := by
  intro k p tl _
  refine ⟨frame9_length k p tl, fun i hi => replicate_append_getElem?_of_lt hi _, ?_, ?_, ?_, ?_, ?_⟩
  · rintro rfl
    exact frame9_getElem?_start k [] tl
  · intro b hb
    rw [frame9_getElem?_start, leadBits, hb]
    rfl
  · intro j x y hx hy
    rw [Nat.add_assoc, frame9_getElem?_add, carriedBytes_getElem?_succ hx, leadBits, List.head?_drop, hy]
    rfl
  · intro x hx
    obtain ⟨init, rfl⟩ := List.getLast?_eq_some_iff.mp hx
    rw [frame9_getElem?_add, List.length_append, List.length_singleton,
      carriedBytes_getElem?_succ (x := x) (by simp), List.drop_eq_nil_of_le (by simp)]
    rfl
  · intro s hs
    exact ⟨_, (exec_decFrame s).trans (by rw [hs, decodeBytes_frame9])⟩

end Sys2Proof.FrameCodec

/-! The host operations of the bus master (41_bus_master_ops.md): the checks in the order of R126, and what each
operation does once all of them pass. -/

namespace Sys2Proof.HostOps

open Sys2Proof.Machine

/-! ## The checks, one at a time (R126) -/

theorem checkAddress_valid {a : Nat} (hlo : 2 ≤ a) (hhi : a ≤ 15) : checkAddress a = none := if_neg (by omega)

theorem checkAddress_invalid {a : Nat} (h : ¬(2 ≤ a ∧ a ≤ 15)) : checkAddress a = some .badAddress :=
  if_pos (by omega)

theorem checkRegister_valid {r : Nat} (h : r ≤ 3) : checkRegister r = none := if_neg (Nat.not_lt.mpr h)

theorem checkRegister_invalid {r : Nat} (h : 3 < r) : checkRegister r = some .badRegister := if_pos h

theorem checkPayload_valid {p : List Byte} (h : p.length ≤ listenMax) : checkPayload p = none :=
  if_neg (Nat.not_lt.mpr h)

theorem checkPayload_invalid {p : List Byte} (h : listenMax < p.length) : checkPayload p = some .callerMisuse :=
  if_pos h

section Checks

variable {s : State} {c : Option ErrorStatus} {cs : List (Option ErrorStatus)} {body : State → State} {a r : Nat}

/-- With no check left the body runs, nothing emitted, returned or raised before it. -/
theorem hostOp_nil : hostOp [] body s = .next (body s.clearOutputs) := rfl

/-- A check that passes leaves the decision to the ones after it. -/
theorem hostOp_pass (h : c = none) : hostOp (c :: cs) body s = hostOp cs body s := by
  subst h
  rfl

/-- A check that fails decides, whatever the ones after it and the operation would do. -/
theorem hostOp_fail {e : ErrorStatus} (h : c = some e) : hostOp (c :: cs) body s = .next (raise e s) := by
  subst h
  rfl

/-- A valid target passes the first three checks of `talk` and `listen`. -/
theorem hostOp_target (hi : s.init = true) (hlo : 2 ≤ a) (hhi : a ≤ 15) (hr : r ≤ 3) :
    hostOp (checkInit s :: checkAddress a :: checkRegister r :: cs) body s = hostOp cs body s := calc
  _ = hostOp (checkAddress a :: checkRegister r :: cs) body s := hostOp_pass (checkInit_init hi)
  _ = hostOp (checkRegister r :: cs) body s := hostOp_pass (checkAddress_valid hlo hhi)
  _ = hostOp cs body s := hostOp_pass (checkRegister_valid hr)

/-- Before `init` no other check is reached (60_exceptions.md R184). -/
theorem hostOp_uninit (hi : s.init = false) : hostOp (checkInit s :: cs) body s = .next (raise .uninit s) :=
  hostOp_fail (checkInit_uninit hi)

/-- A bad address is found before the register is looked at (60_exceptions.md R185). -/
theorem hostOp_badAddress (hi : s.init = true) (ha : ¬(2 ≤ a ∧ a ≤ 15)) :
    hostOp (checkInit s :: checkAddress a :: cs) body s = .next (raise .badAddress s) :=
  (hostOp_pass (checkInit_init hi)).trans (hostOp_fail (checkAddress_invalid ha))

/-- A bad register is found before the payload is looked at (60_exceptions.md R186). -/
theorem hostOp_badRegister (hi : s.init = true) (hlo : 2 ≤ a) (hhi : a ≤ 15) (hr : 3 < r) :
    hostOp (checkInit s :: checkAddress a :: checkRegister r :: cs) body s = .next (raise .badRegister s) :=
  (hostOp_pass (checkInit_init hi)).trans <|
    (hostOp_pass (checkAddress_valid hlo hhi)).trans (hostOp_fail (checkRegister_invalid hr))

end Checks

/-- Settles O7: each clause is one check that fails after those before it have passed. -/
theorem hostChecksInOrder : Obligations.HostChecksInOrder := by
  intro s a r bs p cb raised
  have hraised (e : ErrorStatus) : raised e = .next (raise e s) := rfl
  simp only [exec, execInit, execReset, execFlush, execTalk, execListen, execSrqPend, execConsume, execKeyStateRead,
    hraised]
  refine ⟨fun hi => ?reinit, fun hi => ?uninit, fun hi ha => ?address, fun hi hlo hhi hr => ?register,
    fun hi hlo hhi hr hbs => ?payload⟩
  case reinit => exact hostOp_fail (checkNotInit_init hi)
  case uninit => simp only [hostOp_uninit hi, and_self]
  case address => simp only [hostOp_badAddress hi ha, and_self]
  case register => simp only [hostOp_badRegister hi hlo hhi hr, and_self]
  case payload => exact (hostOp_target hi hlo hhi hr).trans (hostOp_fail (checkPayload_invalid hbs))

/-! ## The operations once their checks pass (R120 to R125) -/

theorem addr_ofNat_toNat {a : Nat} (h : a ≤ 15) : (BitVec.ofNat 4 a).toNat = a :=
  Nat.mod_eq_of_lt (Nat.lt_succ_of_le h)

theorem reg_ofNat_toNat {r : Nat} (h : r ≤ 3) : (BitVec.ofNat 2 r).toNat = r :=
  Nat.mod_eq_of_lt (Nat.lt_succ_of_le h)

/-- The state after `reset()`: `BE_PC` and the queue of words to send stay (R121). -/
def lineReset (s : State) : State :=
  { s.clearOutputs with
    capN := 0
    be := { s.be with rxq := [], resid := [], enabled := true, line := .high }
    out := [.disable, .forceLine .low, .wait s.cfg.resetLowMin, .forceLine .high, .clearCaptures, .enable] }

/-- The state after a flush that pushes `w`: the timing program is at its start again, the line is not forced (R122). -/
def flushedWith (w : Word) (s : State) : State :=
  { s.clearOutputs with
    capN := 0
    be := { s.be with txq := s.be.txq ++ [w], rxq := [], resid := [], pc := 0, enabled := true }
    out := [.disable, .restart, .clearCaptures, .enable, .push w] }

/-- The two port actions that `init`, `reset` and `flush` share: what was captured is dropped and the backend runs. -/
theorem beEnable_beClearCaptures (s : State) : beEnable (beClearCaptures s) =
    { s with be := { s.be with rxq := [], resid := [], enabled := true }
             out := s.out ++ [.clearCaptures, .enable] } := by
  simp [beEnable, beClearCaptures, State.emit]

section Operations

variable {s : State} {a r : Nat}

/-- While `INIT = 0`, `init` runs its two backend actions and then sets every element (R120). -/
theorem exec_init (p : Pin) (cb : Callback) (hi : s.init = false) :
    exec (.init p cb) s = .next ((beEnable (beClearCaptures s.clearOutputs)).initialise p cb) := by
  rw [exec, execInit, hostOp_pass (checkNotInit_uninit hi), hostOp_nil]

/-- Of the six port actions of `reset()`, the later ones lift the earlier ones: the backend is enabled again and the
line high (R121). -/
theorem exec_reset (hi : s.init = true) : exec .reset s = .next (lineReset s) := by
  rw [exec, execReset, hostOp_pass (checkInit_init hi), hostOp_nil]
  simp [beEnable_beClearCaptures, beDisable, beForceLine, beWait, State.clearCapture, State.emit, lineReset]

/-- A flush cleans the backend up before it pushes (R122). -/
theorem exec_flush (hi : s.init = true) (hlo : 2 ≤ a) (hhi : a ≤ 15) : exec (.flush a) s =
    .next (flushedWith (cmdFlushWord s.cfg.flushNibble (BitVec.ofNat 4 a)) s) := by
  rw [exec, execFlush, hostOp_pass (checkInit_init hi), hostOp_pass (checkAddress_valid hlo hhi), hostOp_nil]
  simp [beEnable_beClearCaptures, beDisable, beRestart, bePush, State.clearCapture, State.emit, flushedWith]

/-- With valid arguments `listen` is its pushes, the Listen word first (R124). -/
theorem exec_listen {bs : List Byte} (hi : s.init = true) (hlo : 2 ≤ a) (hhi : a ≤ 15) (hr : r ≤ 3)
    (hbs : bs.length ≤ listenMax) : exec (.listen a r bs) s =
    .next (bePushAll (cmdListenWord (BitVec.ofNat 4 a) (BitVec.ofNat 2 r) :: encodeListen bs) s.clearOutputs) := by
  rw [exec, execListen, hostOp_target hi hlo hhi hr, hostOp_pass (checkPayload_valid hbs), hostOp_nil]

/-- The query and the clearing are one step (R125). -/
theorem exec_srqPend (hi : s.init = true) : exec .srqPend s =
    .next (s.clearOutputs.clearSrqPending.returning (.bool s.srqPending)) := by
  rw [exec, execSrqPend, hostOp_pass (checkInit_init hi), hostOp_nil]
  rfl

end Operations

/-! ## The obligations on the operations -/

/-- Settles O12: the pushes are appended in order, and the frame's words are its bytes. -/
theorem listenPushesFrame : Obligations.ListenPushesFrame := by
  intro s a r bs hi hlo hhi hr hbs
  obtain ⟨haddr, hkind, hreg, hlow⟩ :=
    FrameCodec.addressedWord_fields (BitVec.ofNat 4 a) kindListen (BitVec.ofNat 2 r)
  obtain ⟨hbytes, hcount⟩ := encodeListen_bytes bs
  refine ⟨cmdListenWord (BitVec.ofNat 4 a) (BitVec.ofNat 2 r), encodeListen bs, ?_,
    (congrArg BitVec.toNat haddr).trans (addr_ofNat_toNat hhi), hkind,
    (congrArg BitVec.toNat hreg).trans (reg_ofNat_toNat hr), hlow, hcount, ?_⟩
  · rw [exec_listen hi hlo hhi hr hbs, bePushAll_eq]
    rfl
  · rw [hbytes, hcount, listenBytes, listenHeader_eq, List.cons_append]

/-- Settles O8: the two backend actions touch only what the column after `init` sets as well. -/
theorem initInitialises : Obligations.InitInitialises := by
  intro s p cb hi
  rw [exec_init p cb hi, beEnable_beClearCaptures]
  rfl

/-- Settles O9: no action of `reset()` writes the cursor or the queue of words to send. -/
theorem resetHoldsLine : Obligations.ResetHoldsLine := fun _ hi => exec_reset hi

/-- Settles O10: the word pushed has the address and the machine's own nibble in its fields. -/
theorem flushPushesFlushWord : Obligations.FlushPushesFlushWord := by
  intro s a hi hlo hhi
  obtain ⟨haddr, hnibble, hlow⟩ := FrameCodec.cmdFlushWord_fields s.cfg.flushNibble (BitVec.ofNat 4 a)
  exact ⟨_, exec_flush hi hlo hhi, (congrArg BitVec.toNat haddr).trans (addr_ofNat_toNat hhi), hnibble, hlow⟩

/-- Settles O11: a valid address and register are kept whole in the widths of the target. -/
theorem talkRecordsTarget : Obligations.TalkRecordsTarget := fun _ _ _ hi hlo hhi hr =>
  ⟨_, _, Memory.exec_talk hi hlo hhi hr, addr_ofNat_toNat hhi, reg_ofNat_toNat hr⟩

/-- Settles O13: the value returned is read before the flag is cleared (20_memory.md R59). -/
theorem srqPendReadsAndClears : Obligations.SrqPendReadsAndClears := fun _ hi => exec_srqPend hi

end Sys2Proof.HostOps

/-! The polling state machine (42_polling_events.md): the rotation of the poll target and what runs of several steps do
to it, the completion of a poll by either bus signal, and the dispatch of a decoded response with its callback. -/

namespace Sys2Proof.Polling

open Sys2Proof.Machine Sys2Proof.Writers

/-! ## The rotation (R140) -/

/-- From 15, and from the reserved addresses 0 and 1, the rotation begins again at 2. -/
theorem advanceAddr_of_wrap {a : Addr} (h : 15 ≤ a.toNat ∨ a.toNat ≤ 1) : advanceAddr a = 2#4 := if_pos h

/-- From 2 to 14 the rotation is the successor. -/
theorem advanceAddr_toNat_of_lt {a : Addr} (hlo : 2 ≤ a.toNat) (hhi : a.toNat ≤ 14) :
    (advanceAddr a).toNat = a.toNat + 1 := by
  have hsucc : a.toNat + (1#4).toNat < 2 ^ 4 := by simp; omega
  rw [advanceAddr, if_neg (by omega), BitVec.toNat_add_of_lt hsucc]
  rfl

/-- The rotation as a function on numbers. -/
theorem advanceAddr_toNat (a : Addr) :
    (advanceAddr a).toNat = if a.toNat ≥ 15 ∨ a.toNat ≤ 1 then 2 else a.toNat + 1 := by
  split
  next hwrap => rw [advanceAddr_of_wrap hwrap]; rfl
  next hmid => exact advanceAddr_toNat_of_lt (by omega) (by omega)

/-- On the 14 valid addresses, counted from 2, the rotation counts modulo 14. -/
theorem advanceAddr_iterate_toNat {a : Addr} (ha : 2 ≤ a.toNat) (n : Nat) :
    (advanceAddr^[n] a).toNat = 2 + (a.toNat - 2 + n) % 14 := by
  have := a.isLt
  induction n with
  | zero => simp; omega
  | succ n ih =>
    rw [Function.iterate_succ_apply', advanceAddr_toNat, ih]
    split <;> omega

/-- Settles O15: the period is that of counting modulo 14. -/
theorem advanceRotates : Obligations.AdvanceRotates := by
  refine ⟨fun s a => ⟨advanceAddr a, rfl, Invariant.two_le_advanceAddr a, ?_, ?_, ?_⟩, fun a ha => ?_,
    fun a n ha hn hfix => ?_⟩
  · exact Nat.le_of_lt_succ (advanceAddr a).isLt
  · intro hwrap
    rw [advanceAddr_of_wrap hwrap]
    rfl
  · exact advanceAddr_toNat_of_lt
  · have := a.isLt
    apply BitVec.eq_of_toNat_eq
    rw [advanceAddr_iterate_toNat ha]
    omega
  · have := a.isLt
    have hcount := advanceAddr_iterate_toNat ha n
    rw [hfix] at hcount
    omega

/-! ## The tick and the service request (R141, R143) -/

/-- Settles O16: the word pushed has the target in its fields. -/
theorem tickPollsNext : Obligations.TickPollsNext := fun s hi =>
  ⟨_, Memory.exec_tick hi, FrameCodec.addressedWord_fields s.nextAddr kindTalk s.nextReg⟩

/-- The state after a service request that drained `ws`: of the words only their pops are left. -/
def serviced (ws : List Word) (s : State) : State :=
  { s.clearOutputs with
    nextAddr := advanceAddr s.nextAddr, nextReg := 0, capN := 0, srqPending := true
    be := { s.be with rxq := [], resid := [], pc := 0, flagSrq := false }
    out := .forceFlush :: ws.map .pop ++ [.restart] }

/-- With `INIT = 1` a service request goes on (R143). -/
theorem exec_srq {s : State} (hi : s.init = true) (ws : List Word) : exec (.srq ws) s = .next (serviced ws s) := by
  rw [exec, execSrq, handler_init s hi, completePoll_eq]
  rfl

/-- Settles O17. -/
theorem srqAdvancesTarget : Obligations.SrqAdvancesTarget := fun s ws hi =>
  ⟨_, exec_srq hi ws, advanceAddr_toNat s.nextAddr⟩

/-! ## The poll target over a run (R142, R144) -/

/-- The service requests. -/
def isSrq : Instr → Bool
  | .srq _ => true
  | _ => false

theorem isSrq_iff {i : Instr} : isSrq i = true ↔ ∃ ws, i = .srq ws := by cases i <;> simp [isSrq]

/-- A run that goes on does so from its first step. -/
theorem runOps_cons_cases {i : Instr} {is : List Instr} {s t : State} (h : runOps (i :: is) s = .next t) :
    ∃ u, exec i s = .next u ∧ runOps is u = .next t := by
  rw [runOps] at h
  split at h
  next u hu => exact ⟨u, hu, h⟩
  all_goals cases h

/-- Once initialised, one step but `talk` rotates the target if it is a service request, and keeps it if not. -/
theorem exec_nextAddr {i : Instr} {s t : State} (hi : s.init = true) (htalk : ∀ a r, i ≠ .talk a r)
    (h : exec i s = .next t) : t.nextAddr = if isSrq i then advanceAddr s.nextAddr else s.nextAddr := by
  cases hsrq : isSrq i with
  | true =>
    obtain ⟨ws, rfl⟩ := isSrq_iff.mp hsrq
    rw [exec_srq hi] at h
    cases h
    rfl
  | false =>
    rcases kept_or_written .nextAddr h with hk | ⟨hw, hE⟩
    · exact hk
    · rcases nextAddr_mem_writes.mp hw with ⟨a, r, rfl⟩ | ⟨ws, rfl⟩ | ⟨p, cb, rfl⟩
      · exact absurd rfl (htalk a r)
      · cases hsrq
      · exact absurd hE (not_effect_init hi)

/-- Once initialised, a run without `talk` rotates the target as many times as it has service requests. -/
theorem runOps_nextAddr {is : List Instr} {s t : State} (hi : s.init = true)
    (htalk : ∀ i ∈ is, ∀ a r, i ≠ .talk a r) (h : runOps is s = .next t) :
    t.init = true ∧ t.nextAddr = advanceAddr^[is.countP isSrq] s.nextAddr := by
  induction is generalizing s with
  | nil =>
    cases h
    exact ⟨hi, rfl⟩
  | cons i is ih =>
    obtain ⟨htalk_i, htalk_is⟩ := List.forall_mem_cons.mp htalk
    obtain ⟨u, hu, hrun⟩ := runOps_cons_cases h
    obtain ⟨hinit, -⟩ : Kept s u .setup := exec_keeps_setup hi hu
    obtain ⟨ht, hnext⟩ := ih (hinit.trans hi) htalk_is hrun
    refine ⟨ht, ?_⟩
    rw [hnext, exec_nextAddr hi htalk_i hu, List.countP_cons]
    cases isSrq i <;> rfl

/-- A run of service requests goes on to its end. -/
theorem runOps_srqs (wss : List (List Word)) {s : State} (hi : s.init = true) :
    ∃ t, runOps (wss.map .srq) s = .next t := by
  induction wss generalizing s with
  | nil => exact ⟨s, rfl⟩
  | cons ws wss ih =>
    obtain ⟨t, ht⟩ := ih (s := serviced ws s) hi
    exact ⟨t, (Memory.runOps_cons (exec_srq hi ws)).trans ht⟩

/-- Settles O21: the rotations of the run, counted from 2. -/
theorem rotationSequence : Obligations.RotationSequence := by
  refine ⟨fun s is t hi haddr hops hrun => ?_, fun s wss hi => runOps_srqs wss hi⟩
  obtain ⟨-, hnext⟩ := runOps_nextAddr hi (fun i hmem => (hops i hmem).1) hrun
  rw [hnext, haddr, advanceAddr_iterate_toNat (by decide), BitVec.toNat_ofNat, Nat.zero_add]
  rfl

/-- Settles O22: with no service request between them the run rotates the target no time. -/
theorem repollWithoutRequest : Obligations.RepollWithoutRequest := by
  intro s t u v is hi htick hops hrun htick'
  obtain rfl : Memory.polled s = t := Host.Outcome.next.inj ((Memory.exec_tick hi).symm.trans htick)
  obtain ⟨hu, hnext⟩ := runOps_nextAddr (s := Memory.polled s) hi (fun i hmem => (hops i hmem).1) hrun
  obtain rfl : Memory.polled u = v := Host.Outcome.next.inj ((Memory.exec_tick hu).symm.trans htick')
  have hcount : is.countP isSrq = 0 := List.countP_eq_zero.mpr fun i hmem hsrq =>
    let ⟨ws, he⟩ := isSrq_iff.mp hsrq
    (hops i hmem).2 ws he
  have hsame : u.nextAddr = s.nextAddr := by rw [hnext, hcount]; rfl
  obtain ⟨haddr, hkind, -⟩ := FrameCodec.addressedWord_fields s.nextAddr kindTalk s.nextReg
  obtain ⟨haddr', hkind', -⟩ := FrameCodec.addressedWord_fields u.nextAddr kindTalk u.nextReg
  exact ⟨_, _, rfl, rfl, hkind, hkind', haddr.trans (hsame.symm.trans haddr'.symm)⟩

/-! ## The ring after several bytes (43_scancode_decoder.md R161) -/

/-- With no byte arrived the ring stays. -/
theorem newest_nil {cap : Nat} {ring : List Byte} (h : ring.length ≤ cap) : newest cap ring [] = ring := by
  rw [newest, List.append_nil, Nat.sub_eq_zero_of_le h, List.drop_zero]

/-- Bytes that arrive in two parts leave what they leave at once. -/
theorem newest_newest (cap : Nat) (ring xs ys : List Byte) :
    newest cap (newest cap ring xs) ys = newest cap ring (xs ++ ys) := by
  simp only [newest]
  rw [← List.append_assoc, ← List.drop_append_of_le_length (Nat.sub_le _ _), List.drop_drop, List.length_drop]
  congr 1
  simp only [List.length_append]
  omega

/-- One byte put in a ring that holds at most its capacity. -/
theorem ringAfterPut_eq_newest {cap : Nat} {ring : List Byte} (b : Byte) (h1 : 1 ≤ cap) (h : ring.length ≤ cap) :
    ringAfterPut cap b ring = newest cap ring [b] := by
  rw [ringAfterPut, newest, List.length_append, List.length_singleton]
  split
  next hfull => rw [hfull, Nat.add_sub_cancel_left, List.drop_append_of_le_length (hfull ▸ h1)]
  next hroom => rw [Nat.sub_eq_zero_of_le (by omega), List.drop_zero]

/-- Bytes put one by one leave the newest. -/
theorem ringPutAll_ring (bs : List Byte) {s : State} (h1 : 1 ≤ s.cfg.ringCap) (h : s.ring.length ≤ s.cfg.ringCap) :
    (ringPutAll bs s).ring = newest s.cfg.ringCap s.ring bs := by
  induction bs generalizing s with
  | nil => exact (newest_nil h).symm
  | cons b bs ih => calc
      _ = newest s.cfg.ringCap (ringAfterPut s.cfg.ringCap b s.ring) bs :=
        ih (s := ringPut b s) h1 (ringAfterPut_length h1 h)
      _ = newest s.cfg.ringCap (newest s.cfg.ringCap s.ring [b]) bs := by rw [ringAfterPut_eq_newest b h1 h]
      _ = newest s.cfg.ringCap s.ring (b :: bs) := newest_newest _ _ _ _

/-! ## The callback and the dispatch (R146) -/

/-- What the callback for a payload, or no callback, leaves in the ring. -/
structure RingTakes (s : State) (payload : Option (List Byte)) (ring : List Byte) : Prop where
  silent : payload = none → ring = s.ring
  deaf : ¬s.SinkListens → ring = s.ring
  listening : s.SinkListens → 1 ≤ s.cfg.ringCap → s.ring.length ≤ s.cfg.ringCap →
    ring = newest s.cfg.ringCap s.ring (payload.getD [])

/-- The sink's filter compares the callback's bytes, which are the address and the register (43_scancode_decoder.md
R160). -/
theorem sinkListens_iff (s : State) : s.SinkListens ↔ s.cb = .kbdSink ∧
    (s.curAddr.setWidth 8 : Byte) = s.cfg.kbdAddr.setWidth 8 ∧
    (s.curReg.setWidth 8 : Byte) = s.cfg.kbdReg.setWidth 8 := by
  have hwide {n : Nat} (hn : n ≤ 8) (x y : BitVec n) : (x.setWidth 8 : Byte) = y.setWidth 8 ↔ x.toNat = y.toNat := by
    rw [BitVec.toNat_eq, BitVec.toNat_setWidth_of_le hn, BitVec.toNat_setWidth_of_le hn]
  rw [State.SinkListens, hwide (by decide), hwide (by decide)]

/-- The sink takes every byte of a callback for the keyboard, whatever the step has emitted. -/
theorem runCallback_listening {s : State} (h : s.SinkListens) (p : List Byte) (o : Output) :
    runCallback (s.curAddr.setWidth 8) (s.curReg.setWidth 8) p (s.emit o) = ringPutAll p (s.emit o) := by
  obtain ⟨hcb, hpoll⟩ := (sinkListens_iff s).mp h
  simp only [runCallback, emit_cb, hcb]
  exact if_pos hpoll

/-- Any other callback does nothing inside the block. -/
theorem runCallback_deaf {s : State} (h : ¬s.SinkListens) (p : List Byte) (o : Output) :
    runCallback (s.curAddr.setWidth 8) (s.curReg.setWidth 8) p (s.emit o) = s.emit o := by
  rw [sinkListens_iff] at h
  unfold runCallback
  split
  next hcb => exact if_neg fun hpoll => h ⟨hcb, hpoll⟩
  next => rfl

/-- A call of `onData` reaches the ring through the keyboard sink only. -/
theorem callOnData_ringTakes (p : List Byte) (s : State) : RingTakes s (some p) (callOnData p s).ring where
  silent := nofun
  deaf h := by
    rw [callOnData, runCallback_deaf h]
    rfl
  listening h h1 hlen := (congrArg State.ring (runCallback_listening h p _)).trans (ringPutAll_ring p h1 hlen)

/-- The dispatch calls `onData` with the payload delivered, if there is one. -/
theorem dispatch_eq_elim (res : FrameResult) (s : State) :
    dispatch res s = (delivered s.cfg.emptyPolicy res).elim s fun p => callOnData p s := by
  cases res with
  | noFrame =>
    rw [dispatch, delivered, apply_ite (Option.elim · s fun p => callOnData p s)]
    rfl
  | frame p =>
    cases p with
    | nil =>
      rw [dispatch, delivered, apply_ite (Option.elim · s fun p => callOnData p s)]
      exact if_congr (and_iff_right rfl).symm rfl rfl
    | cons b bs => rfl

theorem callbackOutput_some (s : State) (p : List Byte) : callbackOutput s (some p) =
    [.onData (s.curAddr.setWidth 8) (s.curReg.setWidth 8) p p.length] := by
  simp [callbackOutput]

/-- The dispatch as one update: the callback of R146, and what it leaves in the ring. -/
theorem dispatch_delivers (res : FrameResult) (s : State) : ∃ ring,
    RingTakes s (delivered s.cfg.emptyPolicy res) ring ∧
    dispatch res s =
      { s with ring := ring, out := s.out ++ callbackOutput s (delivered s.cfg.emptyPolicy res) } := by
  rw [dispatch_eq_elim]
  cases delivered s.cfg.emptyPolicy res with
  | none => exact ⟨s.ring, ⟨fun _ => rfl, fun _ => rfl, fun _ _ h => (newest_nil h).symm⟩, by simp [callbackOutput]⟩
  | some p =>
    rw [callbackOutput_some]
    exact ⟨_, callOnData_ringTakes p s, callOnData_eq s p⟩

/-- Settles O19. -/
theorem onDataDispatches : Obligations.OnDataDispatches := by
  intro s res
  obtain ⟨ring, htakes, heq⟩ := dispatch_delivers res s.clearOutputs
  exact ⟨ring, congrArg Host.Outcome.next heq, htakes.deaf, htakes.listening⟩

/-! ## The end of response (R145) -/

/-- The in-place decode leaves the decoded bytes in `CAP[0..CAP_N-1]` (40_frame_codec.md R106). -/
theorem decodeCapture_cap_take (s : State) :
    s.decodeCapture.2.cap.toList.take s.capN.val = (decodeBytes s.captured).2 := by
  refine List.ext_getElem? fun i => ?_
  rcases Nat.lt_or_ge i s.capN.val with hi | hi
  · rw [List.getElem?_take_of_lt hi, ← FrameCodec.decodeCapture_cap_getElem? hi, Vector.getElem?_toList]
  · rw [List.getElem?_take, if_neg hi.not_gt, List.getElem?_eq_none]
    rwa [FrameCodec.decodeBytes_length, FrameCodec.captured_length]

/-- The state between the completion of a poll that drained `ws` and the dispatch, with what the unpack and the decode
leave in the buffer. -/
def decodedWith (ws : List Word) (cap : Vector Byte 9) (n : Fin 10) (s : State) : State :=
  { pollCompleted ws s with cap := cap, capN := n, freeCount := s.freeCount + 1 }

/-- The unpack and the decode in place give the decode of the unpacked bytes, and touch the buffer only. -/
theorem decodeCapture_loadCapture (s : State) (ws : List Word) : ∃ cap n,
    ((pollCompleted ws s).loadCapture ws).decodeCapture =
      ((decodeBytes (unpackBytes s.cfg.unpack ws)).1, decodedWith ws cap n s) ∧
    n.val = (unpackBytes s.cfg.unpack ws).length ∧
    cap.toList.take n.val = (decodeBytes (unpackBytes s.cfg.unpack ws)).2 := by
  have hbytes : ((pollCompleted ws s).loadCapture ws).captured = unpackBytes s.cfg.unpack ws :=
    loadCapture_captured _ ws
  rw [← hbytes]
  exact ⟨((pollCompleted ws s).loadCapture ws).decodeCapture.2.cap, ((pollCompleted ws s).loadCapture ws).capN,
    rfl, (FrameCodec.captured_length _).symm, decodeCapture_cap_take _⟩

/-- The payload that an end of response delivers in a state, if there is one. -/
def eorPayload (s : State) (ws : List Word) : Option (List Byte) :=
  delivered s.cfg.emptyPolicy (decodeBytes (unpackBytes s.cfg.unpack ws)).1

/-- The state after an end of response that drained `ws`, with what it leaves in the buffer and the ring. -/
def responded (ws : List Word) (cap : Vector Byte 9) (n : Fin 10) (ring : List Byte) (s : State) : State :=
  { s.clearOutputs with
    cap := cap, capN := n, ring := ring, freeCount := s.freeCount + 1
    be := { s.be with rxq := [], resid := [], pc := 0, flagEor := false }
    out := .forceFlush :: ws.map .pop ++ .restart :: callbackOutput s (eorPayload s ws) }

/-- With `INIT = 1` an end of response goes on: the words are unpacked, decoded in place and dispatched. -/
theorem exec_eor {s : State} (hi : s.init = true) (ws : List Word) : ∃ cap n ring,
    exec (.eor ws) s = .next (responded ws cap n ring s) ∧
    n.val = (unpackBytes s.cfg.unpack ws).length ∧
    cap.toList.take n.val = (decodeBytes (unpackBytes s.cfg.unpack ws)).2 ∧
    RingTakes s (eorPayload s ws) ring := by
  obtain ⟨cap, n, hdecode, hcount, hcap⟩ := decodeCapture_loadCapture s ws
  obtain ⟨ring, htakes, hdispatch⟩ :=
    dispatch_delivers (decodeBytes (unpackBytes s.cfg.unpack ws)).1 (decodedWith ws cap n s)
  have hout : (decodedWith ws cap n s).out ++ callbackOutput s (eorPayload s ws) =
      .forceFlush :: ws.map .pop ++ .restart :: callbackOutput s (eorPayload s ws) := List.append_assoc ..
  refine ⟨cap, n, ring, ?_, hcount, hcap, htakes.silent, htakes.deaf, htakes.listening⟩
  rw [show exec (.eor ws) s = _ from execEor_eq s ws hi, hdecode, responded, ← hout]
  exact congrArg Host.Outcome.next hdispatch

/-- Settles O18. -/
theorem eorDeliversPayload : Obligations.EorDeliversPayload := by
  intro s ws hi
  obtain ⟨cap, n, ring, heq, hcount, hcap, htakes⟩ := exec_eor hi ws
  exact ⟨cap, n, ring, heq, hcount, hcap, htakes.deaf, htakes.listening⟩

/-! ## The callbacks of a step (R146) -/

@[simp] theorem callbacksOf_append (os os' : List Output) :
    callbacksOf (os ++ os') = callbacksOf os ++ callbacksOf os' := List.filter_append ..

@[simp] theorem callbacksOf_map_push (ws : List Word) : callbacksOf (ws.map .push) = [] := by
  simp [callbacksOf]

@[simp] theorem callbacksOf_map_pop (ws : List Word) : callbacksOf (ws.map .pop) = [] := by
  simp [callbacksOf]

/-- A completion sequence makes no callback of its own (60_exceptions.md R188). -/
theorem callbacksOf_completion (ws : List Word) (os : List Output) :
    callbacksOf (.forceFlush :: ws.map .pop ++ .restart :: os) = callbacksOf os := by
  change callbacksOf (ws.map .pop ++ .restart :: os) = _
  rw [callbacksOf_append, callbacksOf_map_pop]
  rfl

theorem callbacksOf_callbackOutput (s : State) (payload : Option (List Byte)) :
    callbacksOf (callbackOutput s payload) = callbackOutput s payload := by
  cases payload with
  | none => rfl
  | some p => rfl

/-- A dispatch makes at most one callback. -/
theorem callbacksOf_dispatched {s : State} {os : List Output} {ring : List Byte} (h : Dispatched s os ring) :
    (callbacksOf os).length ≤ 1 := by
  rcases h.callbacks with rfl | ⟨a, r, p, n, rfl⟩
  · exact Nat.zero_le 1
  · exact Nat.le_refl 1

/-- The operations that dispatch a decode result. -/
def dispatches : Instr → Bool
  | .eor _ | .onData _ => true
  | _ => false

theorem dispatches_iff {i : Instr} : dispatches i = true ↔ (∃ ws, i = .eor ws) ∨ ∃ res, i = .onData res := by
  cases i <;> simp [dispatches]

/-- An operation that dispatches makes the dispatch's callback and no other. -/
theorem callbacksOf_of_dispatches {i : Instr} {s t : State} (hi : dispatches i = true) (h : Effect s t i) :
    (callbacksOf t.out).length ≤ 1 := by
  rcases dispatches_iff.mp hi with ⟨ws, rfl⟩ | ⟨res, rfl⟩
  · obtain ⟨-, cap, n, os, ring, hd, rfl⟩ := h
    exact (congrArg List.length (callbacksOf_completion ws os)).trans_le (callbacksOf_dispatched hd)
  · obtain ⟨os, ring, hd, rfl⟩ := h
    exact callbacksOf_dispatched hd

/-- Every other operation makes no callback. -/
theorem callbacksOf_of_not_dispatches {i : Instr} {s t : State} (hi : dispatches i = false) (h : Effect s t i) :
    callbacksOf t.out = [] := by
  cases i with
  | eor | onData => cases hi
  | cmdReset | cmdFlush | cmdTalk | cmdListen | encListen | capUnpack | advance =>
    obtain ⟨r, rfl⟩ := h
    rfl
  | decFrame =>
    obtain ⟨cap, r, rfl⟩ := h
    rfl
  | init | reset | srqPend | tick | kbdSink | keyStateRead =>
    obtain ⟨-, rfl⟩ := h
    rfl
  | flush =>
    obtain ⟨-, w, rfl⟩ := h
    rfl
  | talk =>
    obtain ⟨-, -, -, -, rfl⟩ := h
    rfl
  | listen =>
    obtain ⟨-, ws, rfl⟩ := h
    exact callbacksOf_map_push ws
  | srq ws =>
    obtain ⟨-, rfl⟩ := h
    exact callbacksOf_completion ws []
  | ringPut | scMod | keyDown | keyUp =>
    obtain rfl := h
    rfl
  | scByte =>
    rw [Effect, decodeScancode_eq] at h
    obtain rfl := h
    rfl
  | consume =>
    rcases h with ⟨-, ⟨-, rfl⟩ | ⟨b, rest, -, h⟩⟩
    · rfl
    · rw [decodeScancode_eq] at h
      obtain rfl := h
      rfl

/-- Settles O47: a raise emits nothing, an operation that dispatches makes the dispatch's callback, any other none. -/
theorem atMostOneCallback : Obligations.AtMostOneCallback := by
  intro i s t h
  rcases exec_cases h with ⟨err, rfl⟩ | ⟨hE, -⟩
  · exact ⟨Nat.zero_le 1, fun _ _ => rfl⟩
  · cases hi : dispatches i with
    | true =>
      refine ⟨callbacksOf_of_dispatches hi hE, fun heor hdata => ?_⟩
      rcases dispatches_iff.mp hi with ⟨ws, he⟩ | ⟨res, he⟩
      · exact absurd he (heor ws)
      · exact absurd he (hdata res)
    | false =>
      have hnone := callbacksOf_of_not_dispatches hi hE
      exact ⟨by simp [hnone], fun _ _ => hnone⟩

/-! ## Both orders of the two bus signals (R147) -/

/-- With the default `UNPACK` an empty drain delivers nothing under a policy that drops an empty capture. -/
theorem eorPayload_nil {s : State} (hunpack : s.cfg.unpack = .keepAll) (hpolicy : s.cfg.emptyPolicy ≠ .always) :
    eorPayload s [] = none := by
  rw [eorPayload, hunpack]
  exact if_neg hpolicy

/-- Settles O24: the service request takes the words, so the end of response after it has none to deliver. -/
theorem bothSignalOrders : Obligations.BothSignalOrders := by
  intro s ws hi hunpack hpolicy
  obtain ⟨cap, n, ring, hsecond, -, -, htakes⟩ := exec_eor (s := serviced ws s) hi []
  obtain ⟨cap', n', ring', hfirst, -⟩ := exec_eor hi ws
  have hnone : eorPayload (serviced ws s) [] = none := eorPayload_nil (s := serviced ws s) hunpack hpolicy
  have hrun : runOps [.srq ws, .eor []] s = .next (responded [] cap n ring (serviced ws s)) :=
    (Memory.runOps_cons (exec_srq hi ws)).trans (Memory.runOps_cons hsecond)
  refine ⟨_, _, _, hrun, hfirst, exec_srq (s := responded ws cap' n' ring' s) hi [], rfl, rfl, rfl, rfl, rfl,
    rfl, htakes.silent hnone, ?_, rfl, ?_⟩
  · rw [responded, callbacksOf_completion, hnone]
    rfl
  · rw [responded, callbacksOf_completion, callbacksOf_callbackOutput, eorPayload, hunpack]

end Sys2Proof.Polling

/-! The keyboard sink with its ring, and the scancode decoder (43_scancode_decoder.md): what arrives in the ring and
what is taken from it (R160 to R162), then the effect of each class of scancode byte on the key list and the flags
(R163 to R170). -/

namespace Sys2Proof.Keyboard

open Sys2Proof.Machine Sys2Proof.Scope Sys2Proof.Writers Sys2Proof.Invariant Sys2Proof.Encoding Sys2Proof.HostOps
open Sys2Proof.Polling

/-! ## The ring (R160 to R162) -/

section Sink

variable {s : State} {a r : Byte}

/-- The sink's filter compares bytes, and so the numbers of the address and the register. -/
theorem sinkFilter_iff : a = s.cfg.kbdAddr.setWidth 8 ∧ r = s.cfg.kbdReg.setWidth 8 ↔
    a.toNat = s.cfg.kbdAddr.toNat ∧ r.toNat = s.cfg.kbdReg.toNat := by
  rw [BitVec.toNat_eq, BitVec.toNat_eq, BitVec.toNat_setWidth_of_le (by decide),
    BitVec.toNat_setWidth_of_le (by decide)]

/-- A callback for the keyboard puts its bytes in the ring … -/
theorem kbdSink_of_poll (ha : a.toNat = s.cfg.kbdAddr.toNat) (hr : r.toNat = s.cfg.kbdReg.toNat) (p : List Byte) :
    kbdSink a r p s = ringPutAll p s := if_pos (sinkFilter_iff.mpr ⟨ha, hr⟩)

/-- … and one for another device or register is dropped. -/
theorem kbdSink_of_other (h : ¬(a.toNat = s.cfg.kbdAddr.toNat ∧ r.toNat = s.cfg.kbdReg.toNat)) (p : List Byte) :
    kbdSink a r p s = s := if_neg (mt sinkFilter_iff.mp h)

end Sink

/-- Settles O25: within the payload the step is the sink's, and bytes put one by one leave the newest. -/
theorem kbdSinkFillsRing : Obligations.KbdSinkFillsRing := by
  intro s a r p n hn
  have hexec : exec (.kbdSink a r p n) s = .next (kbdSink a r (p.take n) s.clearOutputs) := if_pos hn
  refine ⟨(kbdSink a r (p.take n) s.clearOutputs).ring, ?frame, fun hother => ?other, fun ha hr h1 hlen => ?poll⟩
  case frame => exact hexec.trans (congrArg Host.Outcome.next (kbdSink_ring _ _ _ _))
  case other => calc
    _ = s.clearOutputs.ring := congrArg State.ring (kbdSink_of_other (s := s.clearOutputs) hother _)
    _ = s.ring := clearOutputs_ring s
  case poll => calc
    _ = (ringPutAll (p.take n) s.clearOutputs).ring :=
      congrArg State.ring (kbdSink_of_poll (s := s.clearOutputs) ha hr _)
    _ = newest s.cfg.ringCap s.ring (p.take n) := ringPutAll_ring _ h1 hlen

/-- Settles O27: what is put is what R161 appends, to the ring or to what is left of a full one. -/
theorem ringPutOverwritesOldest : Obligations.RingPutOverwritesOldest := by
  intro s b
  have hexec (ring' : List Byte) (h : ringAfterPut s.cfg.ringCap b s.ring = ring') : exec (.ringPut b) s =
      .next { s with ring := ring', out := [], ret := .none, status := none } := by
    rw [← h]
    rfl
  constructor
  · intro hroom
    exact hexec _ (by rw [ringAfterPut, if_neg hroom])
  · intro hfull
    exact hexec _ (by rw [ringAfterPut, if_pos hfull, List.drop_one])

/-- With nothing to take the step only clears the outputs of the one before (R162). -/
theorem exec_consume_nil {s : State} (hi : s.init = true) (hring : s.ring = []) :
    exec .consume s = .next s.clearOutputs := by
  rw [exec, execConsume, hostOp_pass (checkInit_init hi), hostOp_nil]
  simp only [clearOutputs_ring, hring]

/-- The byte is taken from the ring before it is decoded (R162). -/
theorem exec_consume_cons {s : State} {b : Byte} {rest : List Byte} (hi : s.init = true) (hring : s.ring = b :: rest) :
    exec .consume s = .next (decodeScancode b { s.clearOutputs with ring := rest }) := by
  rw [exec, execConsume, hostOp_pass (checkInit_init hi), hostOp_nil]
  simp only [clearOutputs_ring, hring]

/-- Settles O28: the decoder leaves the rest of the ring alone. -/
theorem consumeTakesOldest : Obligations.ConsumeTakesOldest := fun _ hi =>
  ⟨exec_consume_nil hi, fun _ _ hring => ⟨_, exec_consume_cons hi hring, rfl, decodeScancode_ring _ _⟩⟩

/-! ## Modifier scancodes (R164) -/

theorem isModifier_iff {c : Params} {sc : Scancode} :
    isModifier c sc = true ↔ sc ∈ [c.scLGui, c.scLShift, c.scRShift, c.scLCtrl, c.scLAlt] := by
  simp [isModifier, or_assoc]

/-- Admissible parameters tell the five modifiers apart (00_scope.md R8). -/
theorem modifiers_nodup {c : Params} (hc : c.wf = true) :
    [c.scLGui, c.scLShift, c.scRShift, c.scLCtrl, c.scLAlt].Nodup := by
  simp only [Params.wf, Bool.and_eq_true, decide_eq_true_eq] at hc
  obtain ⟨⟨⟨⟨⟨-, hnodup⟩, -⟩, -⟩, -⟩, -⟩ := hc
  exact hnodup

/-- Settles O30: of the five tests of R164 only that of the scancode's own flag succeeds. -/
theorem modifierWritesOneFlag : Obligations.ModifierWritesOneFlag := by
  intro s rel hc wrote
  have hexec (sc : Scancode) : exec (.scMod sc rel) s = wrote (modsAfter s.cfg sc rel s.mods) := rfl
  have hnodup := modifiers_nodup hc
  simp only [List.nodup_cons, List.mem_cons, List.not_mem_nil, not_or] at hnodup
  obtain ⟨⟨gui_lshift, gui_rshift, gui_ctrl, gui_alt, -⟩, ⟨lshift_rshift, lshift_ctrl, lshift_alt, -⟩,
    ⟨rshift_ctrl, rshift_alt, -⟩, ⟨ctrl_alt, -⟩, -⟩ := hnodup
  simp only [hexec, modsAfter_eq, if_true]
  refine ⟨?gui, ?lshift, ?rshift, ?ctrl, ?alt⟩
  case gui => rw [if_neg gui_lshift, if_neg gui_rshift, if_neg gui_ctrl, if_neg gui_alt]
  case lshift =>
    rw [if_neg (Ne.symm gui_lshift), if_neg lshift_rshift, if_neg lshift_ctrl, if_neg lshift_alt]
  case rshift =>
    rw [if_neg (Ne.symm gui_rshift), if_neg (Ne.symm lshift_rshift), if_neg rshift_ctrl, if_neg rshift_alt]
  case ctrl =>
    rw [if_neg (Ne.symm gui_ctrl), if_neg (Ne.symm lshift_ctrl), if_neg (Ne.symm rshift_ctrl), if_neg ctrl_alt]
  case alt =>
    rw [if_neg (Ne.symm gui_alt), if_neg (Ne.symm lshift_alt), if_neg (Ne.symm rshift_alt),
      if_neg (Ne.symm ctrl_alt)]

/-! ## Key lists (R165, R166) -/

/-- The translation is the table's entry at the scancode's number. -/
theorem xlat_getD (c : Params) (sc : Scancode) : c.xlat.toList.getD sc.toNat 0 = translate c sc := by
  have := sc.isLt
  rw [List.getD_eq_getElem _ _ (by simp; omega)]
  rfl

section KeyList

variable {K : Type} {noKey k : K} {ks : Vector K 6}

/-- A key is held if a slot has it … -/
theorem mem_keys_iff : k ∈ ks.toList ↔ ∃ i : Fin 6, ks[i] = k := by
  rw [Vector.mem_toList_iff, Vector.mem_iff_getElem, Fin.exists_iff]
  rfl

/-- … and absent if no slot has it. -/
theorem not_mem_keys_iff : k ∉ ks.toList ↔ ∀ i : Fin 6, ks[i] ≠ k := by
  rw [mem_keys_iff, not_exists]

variable [DecidableEq K]

theorem keysAfterCode_noKey {rel : Bool} (h : k = noKey) : keysAfterCode noKey k rel ks = ks := if_pos h

theorem keysAfterCode_down (h : k ≠ noKey) : keysAfterCode noKey k false ks = keysAfterDown k ks := if_neg h

theorem keysAfterCode_up (h : k ≠ noKey) : keysAfterCode noKey k true ks = keysAfterUp noKey k ks := if_neg h

theorem keysAfterDown_of_mem (h : k ∈ ks.toList) : keysAfterDown k ks = ks := if_pos h

theorem keysAfterDown_of_not_mem (h : k ∉ ks.toList) :
    keysAfterDown k ks = #v[k, ks[0], ks[1], ks[2], ks[3], ks[4]] := if_neg h

theorem keysAfterUp_of_not_mem (h : k ∉ ks.toList) : keysAfterUp noKey k ks = ks := if_neg h

/-- A key that is down is in the list. -/
theorem mem_keysAfterDown (k : K) (ks : Vector K 6) : k ∈ (keysAfterDown k ks).toList := by
  by_cases h : k ∈ ks.toList
  · rwa [keysAfterDown_of_mem h]
  · simp [keysAfterDown_of_not_mem h]

/-- The first slot that holds a key is its index. -/
theorem idxOf_keys {i : Fin 6} (hi : ks[i] = k) (hfirst : ∀ j : Fin 6, j < i → ks[j] ≠ k) :
    ks.toList.idxOf k = i.val := by
  rw [List.idxOf, List.findIdx_eq (by simp)]
  refine ⟨by simpa using hi, fun j hj => ?_⟩
  simpa using hfirst ⟨j, hj.trans i.isLt⟩ hj

/-- Removal by slots: those before the removed one stay, the others take the next one's key. -/
theorem keysAfterUp_getElem (h : k ∈ ks.toList) (n : Nat) (hn : n < 6) : (keysAfterUp noKey k ks)[n] =
    slot noKey ks (if n < ks.toList.idxOf k then n else n + 1) :=
  (dif_pos hn).symm.trans (slot_keysAfterUp h n)

/-- A key pressed a second time changes nothing (R169). -/
theorem keysAfterCode_down_down (noKey k : K) (ks : Vector K 6) :
    keysAfterCode noKey k false (keysAfterCode noKey k false ks) = keysAfterCode noKey k false ks := by
  by_cases h : k = noKey
  · simp only [keysAfterCode_noKey h]
  · simp only [keysAfterCode_down h, keysAfterDown_of_mem (mem_keysAfterDown k ks)]

/-- Three keys pressed on an empty list: the last one first (R169). -/
theorem keysAfterCode_three {a b c : K} (h : [a, b, c, noKey].Nodup) :
    keysAfterCode noKey c false (keysAfterCode noKey b false
      (keysAfterCode noKey a false #v[noKey, noKey, noKey, noKey, noKey, noKey])) =
      #v[c, b, a, noKey, noKey, noKey] := by
  simp only [List.nodup_cons, List.mem_cons, List.not_mem_nil, not_or] at h
  obtain ⟨⟨hab, hac, ha, -⟩, ⟨hbc, hb, -⟩, ⟨hc, -⟩, -⟩ := h
  rw [keysAfterCode_down ha, keysAfterDown_of_not_mem (k := a) (by simp [ha]),
    keysAfterCode_down hb, keysAfterDown_of_not_mem (k := b) (by simp [hb, Ne.symm hab]),
    keysAfterCode_down hc, keysAfterDown_of_not_mem (k := c) (by simp [hc, Ne.symm hac, Ne.symm hbc])]
  rfl

/-- The second of the three released: the third and the first are left (R169). -/
theorem keysAfterCode_release_second {a b c : K} (h : [a, b, c, noKey].Nodup) :
    keysAfterCode noKey b true #v[c, b, a, noKey, noKey, noKey] = #v[c, a, noKey, noKey, noKey, noKey] := by
  simp only [List.nodup_cons, List.mem_cons, List.not_mem_nil, not_or] at h
  obtain ⟨-, ⟨hbc, hb, -⟩, -⟩ := h
  have hidx : #v[c, b, a, noKey, noKey, noKey].toList.idxOf b = 1 :=
    idxOf_keys (i := 1) rfl fun j hj => by
      obtain rfl : j = 0 := by omega
      exact Ne.symm hbc
  rw [keysAfterCode_up hb]
  ext n hn
  rw [keysAfterUp_getElem (by simp), hidx]
  interval_cases n <;> rfl

end KeyList

/-! ## Key operations (R165, R166, R169) -/

/-- Settles O31: a key is inserted unless it is held. -/
theorem keyDownInsertsFirst : Obligations.KeyDownInsertsFirst := by
  intro s sc
  refine ⟨keysAfterCode s.cfg.noKey (translate s.cfg sc) false s.keys, rfl, ?_⟩
  intro k
  have hk : k = translate s.cfg sc := xlat_getD s.cfg sc
  rw [← hk]
  refine ⟨keysAfterCode_noKey, fun hne hheld => ?held, fun hne habsent => ?inserted⟩
  case held => rw [keysAfterCode_down hne, keysAfterDown_of_mem (mem_keys_iff.mpr hheld)]
  case inserted =>
    rw [keysAfterCode_down hne, keysAfterDown_of_not_mem (not_mem_keys_iff.mpr habsent)]
    refine ⟨rfl, fun i hi => ?_⟩
    fin_cases i
    · cases hi
    all_goals rfl

/-- Settles O32: the slots are those of a removal at the first index of the key. -/
theorem keyUpClosesGap : Obligations.KeyUpClosesGap := by
  intro s sc
  refine ⟨keysAfterCode s.cfg.noKey (translate s.cfg sc) true s.keys, rfl, ?_⟩
  intro k
  have hk : k = translate s.cfg sc := xlat_getD s.cfg sc
  rw [← hk]
  refine ⟨keysAfterCode_noKey, fun hne habsent => ?absent, fun hne i hi hfirst => ?removed⟩
  case absent => rw [keysAfterCode_up hne, keysAfterUp_of_not_mem (not_mem_keys_iff.mpr habsent)]
  case removed =>
    rw [keysAfterCode_up hne]
    have hslot := keysAfterUp_getElem (noKey := s.cfg.noKey) (mem_keys_iff.mpr ⟨i, hi⟩)
    rw [idxOf_keys hi hfirst] at hslot
    refine ⟨fun j hj => ?_, fun j hj => ?_, ?_⟩
    · exact (hslot j j.isLt).trans ((congrArg _ (if_pos hj)).trans (slot_fin _ _ j))
    · rw [hslot, if_neg (by omega)]
      exact slot_fin _ _ j.succ
    · rw [hslot, if_neg (by omega), slot_of_ge (by omega)]

/-- The state after the byte of a key. -/
def keyed (release : Bool) (sc : Scancode) (s : State) : State := changeKey sc release s.clearOutputs

@[simp] theorem keyed_cfg (release : Bool) (sc : Scancode) (s : State) : (keyed release sc s).cfg = s.cfg := rfl

@[simp] theorem keyed_keys (release : Bool) (sc : Scancode) (s : State) : (keyed release sc s).keys =
    keysAfterCode s.cfg.noKey (translate s.cfg sc) release s.keys := rfl

/-- A key's byte is the change of that key (R163). -/
theorem exec_scByte_scancodeByte {s : State} {sc : Scancode} (hm : isModifier s.cfg sc = false) (release : Bool) :
    exec (.scByte (scancodeByte release sc)) s = .next (keyed release sc s) := by
  obtain ⟨hrelease, hsc⟩ := scancodeByte_fields release sc
  rw [exec_scByte_of_key (by rwa [hsc]), hrelease, hsc]
  rfl

/-- Settles O34: by the key list, as every byte here is a key's. -/
theorem keyOrderAndIdempotence : Obligations.KeyOrderAndIdempotence := by
  constructor
  · intro s b hb hm
    refine ⟨_, _, exec_scByte_of_key hm, exec_scByte_of_key hm, ?_⟩
    rw [show releaseBit b = false from hb]
    exact keysAfterCode_down_down _ _ _
  · intro s sa sb sc nk a b c hm hnodup hkeys
    simp only [List.forall_mem_cons] at hm
    obtain ⟨hma, hmb, hmc, -⟩ := hm
    have hrun := calc
      runOps [.scByte (scancodeByte false sa), .scByte (scancodeByte false sb), .scByte (scancodeByte false sc)] s
      _ = runOps [.scByte (scancodeByte false sb), .scByte (scancodeByte false sc)] (keyed false sa s) :=
        Memory.runOps_cons (exec_scByte_scancodeByte hma false)
      _ = runOps [.scByte (scancodeByte false sc)] (keyed false sb (keyed false sa s)) :=
        Memory.runOps_cons (exec_scByte_scancodeByte (by simpa using hmb) false)
      _ = .next (keyed false sc (keyed false sb (keyed false sa s))) :=
        Memory.runOps_cons (exec_scByte_scancodeByte (by simpa using hmc) false)
    have hdown : (keyed false sc (keyed false sb (keyed false sa s))).keys = #v[c, b, a, nk, nk, nk] := by
      simp only [keyed_keys, keyed_cfg, hkeys]
      exact keysAfterCode_three hnodup
    refine ⟨_, _, hrun, hdown, exec_scByte_scancodeByte (by simpa using hmb) true, ?_⟩
    rw [keyed_keys, hdown]
    simp only [keyed_cfg]
    exact keysAfterCode_release_second hnodup

/-! ## Scancode bytes (R163) -/

/-- A byte that is no modifier is the operation of its key, by its release flag (R163). -/
theorem exec_scByte_eq_keyOperation {s : State} {b : Byte} (hm : isModifier s.cfg (scancodeOf b) = false) :
    exec (.scByte b) s = exec (keyOperation (releaseBit b) (scancodeOf b)) s :=
  (exec_scByte_of_key hm).trans (exec_keyOperation s).symm

/-- Settles O29: the fields of the byte are those the model reads, and its class decides the operation. -/
theorem scancodeByteClasses : Obligations.ScancodeByteClasses := by
  intro s b sc isMod k
  have hsc : sc = scancodeOf b := (BitVec.setWidth_eq_extractLsb' (by decide)).symm
  have hk : k = lookupCode s.cfg.xlat (scancodeOf b) := hsc ▸ xlat_getD s.cfg sc
  have hclass : isMod ↔ isModifier s.cfg (scancodeOf b) = true := hsc ▸ isModifier_iff.symm
  simp only [hclass, Bool.not_eq_true]
  refine ⟨⟨_, _, congrArg Host.Outcome.next (decodeScancode_eq s.clearOutputs b)⟩, fun hm => ?modifier,
    fun hm hnone => ?noKey, fun hm hkey hb => ?down, fun hm hkey hb => ?up⟩
  case modifier =>
    exact hsc ▸ exec_scByte_of_modifier hm
  case noKey =>
    rw [exec_scByte_of_key hm, keysAfterCode_noKey (hk.symm.trans hnone)]
  case down =>
    rw [exec_scByte_eq_keyOperation hm, show releaseBit b = false from hb, hsc]
    rfl
  case up =>
    rw [exec_scByte_eq_keyOperation hm, show releaseBit b = true from hb, hsc]
    rfl

/-! ## The key state (R168, R170) -/

/-- Settles O33: once initialised the check passes, and the body only returns. -/
theorem keyStateSnapshot : Obligations.KeyStateSnapshot := by
  intro s hi
  rw [exec, execKeyStateRead, hostOp_pass (checkInit_init hi), hostOp_nil]
  rfl

/-- Settles O43: after `init` the flags are kept; before it only a byte, a modifier and `init` reach them. -/
theorem untriggeredFlagsNeverSet : Obligations.UntriggeredFlagsNeverSet := by
  intro i s t h
  cases hi : s.init with
  | true => exact .inl (untriggered_kept hi h)
  | false =>
    rcases kept_or_written .mods h with hk | ⟨hw, hE⟩
    · exact .inl (congrArg untriggered hk)
    · rcases mods_mem_writes.mp hw with rfl | ⟨b, rfl⟩ | ⟨sc, rel, rfl⟩ | ⟨p, cb, rfl⟩
      · obtain ⟨hinit, -⟩ := hE
        cases hi.symm.trans hinit
      · obtain rfl := hE
        exact .inl (untriggered_decodeScancode b s.clearOutputs)
      · obtain rfl := hE
        exact .inl (untriggered_modsAfter _ _ _ _)
      · obtain ⟨-, rfl⟩ := hE
        exact .inr ⟨rfl, rfl, p, cb, rfl⟩

end Sys2Proof.Keyboard

/-! Which inputs go on, which raise and which have no transition (60_exceptions.md R181, R184, R195): before `init` the
events have none, after it every well-formed operation goes on, and a step that raises has written nothing. -/

namespace Sys2Proof.Exceptions

open Sys2Proof.Machine Sys2Proof.Scope Sys2Proof.Writers Sys2Proof.Encoding

/-! ## Going on and stopping (R184) -/

/-- A host operation never stops: what its checks refuse is a status (log 8). -/
theorem hostOp_goes_on (checks : List (Option ErrorStatus)) (body : State → State) (s : State) :
    ∃ t, hostOp checks body s = .next t := by
  unfold hostOp
  split
  · exact ⟨_, rfl⟩
  · exact ⟨_, rfl⟩

/-- A stop needs an event before `init` or an operand outside its domain (40_frame_codec.md R104, 30_encoding.md R78). -/
theorem exec_goes_on {i : Instr} {s : State} (hi : s.init = true) (hw : i.wellFormed s.cfg = true) :
    ∃ t, exec i s = .next t := by
  cases i with
  | cmdReset | cmdFlush | cmdTalk | cmdListen | capUnpack | decFrame | advance | onData | ringPut | scByte | scMod
  | keyDown | keyUp => exact ⟨_, rfl⟩
  | init | reset | flush | talk | listen | srqPend | consume | keyStateRead =>
    simp only [exec, execInit, execReset, execFlush, execTalk, execListen, execSrqPend, execConsume, execKeyStateRead]
    exact hostOp_goes_on _ _ s
  | tick | srq | eor =>
    simp only [exec, execTick, execSrq, execEor]
    exact ⟨_, handler_init s hi⟩
  | encListen p =>
    have hp : p.length ≤ listenMax := of_decide_eq_true hw
    exact ⟨_, if_pos hp⟩
  | kbdSink a r p n =>
    simp only [Instr.wellFormed, Bool.and_eq_true, decide_eq_true_eq] at hw
    obtain ⟨-, hn⟩ := hw
    exact ⟨_, if_pos hn.le⟩

/-- Settles O38: the decoder accepts only well-formed operations, and taking the input leaves `INIT` and the
parameters. -/
theorem noStopAfterInit : Obligations.NoStopAfterInit := by
  intro s p rest i hi hin hd
  obtain ⟨-, hw⟩ := decode_eq_ok_iff.mp hd
  obtain ⟨t, ht⟩ := exec_goes_on (s := { s with inputs := rest }) hi hw
  exact ⟨t, ((step_of_input hin).1 i hd).trans ht⟩

/-- Settles O20: all three events are handlers, and a handler asks for `INIT = 1` first. -/
theorem eventsNeedInit : Obligations.EventsNeedInit := by
  intro s ws hi
  simp only [exec, execTick, execSrq, execEor]
  exact ⟨handler_uninit s hi, handler_uninit s hi, handler_uninit s hi⟩

/-! ## What a step leaves alone (R181, R195) -/

/-- The table of writers, read backwards: an element that changed is one the operation writes. -/
theorem mem_writes_of_not_kept {i : Instr} {s t : State} {e : Element} (h : exec i s = .next t) (hk : ¬Kept s t e) :
    e ∈ writes i :=
  not_imp_comm.mp (exec_keeps h) hk

/-- Settles O42: the writers of `KEYS` and those of the flags, off the table. -/
theorem keyStateWriters : Obligations.KeyStateWriters := by
  rintro i s t h (hkeys | hmods)
  · rcases keys_mem_writes.mp (mem_writes_of_not_kept h hkeys) with hc | hb | hdown | hup | hinit
    · exact .inr (.inl hc)
    · exact .inr (.inr (.inl hb))
    · exact .inr (.inr (.inr (.inr (.inl hdown))))
    · exact .inr (.inr (.inr (.inr (.inr hup))))
    · exact .inl hinit
  · rcases mods_mem_writes.mp (mem_writes_of_not_kept h hmods) with hc | hb | hmod | hinit
    · exact .inr (.inl hc)
    · exact .inr (.inr (.inl hb))
    · exact .inr (.inr (.inr (.inl hmod)))
    · exact .inl hinit

/-- Settles O48: an operation that takes effect shows no status, so a step with a status is a raise. -/
theorem raiseChangesNothing : Obligations.RaiseChangesNothing := by
  intro i s t h hstatus
  rcases exec_cases h with ⟨e, rfl⟩ | ⟨-, hnone⟩
  · rfl
  · exact absurd hnone hstatus

end Sys2Proof.Exceptions

/-! The service-request query (70_reset_and_hazards.md R231): what it reports after a run of service requests, and after
another query. -/

namespace Sys2Proof.Hazards

open Sys2Proof.Machine Sys2Proof.Polling

/-- A run that goes on is followed by the rest of the list. -/
theorem runOps_append {is js : List Instr} {s t : State} (h : runOps is s = .next t) :
    runOps (is ++ js) s = runOps js t := by
  induction is generalizing s with
  | nil =>
    cases h
    rfl
  | cons i is ih =>
    obtain ⟨u, hu, hrun⟩ := runOps_cons_cases h
    exact (Memory.runOps_cons hu).trans (ih hrun)

/-- A run of service requests ends with one recorded, unless none arrived and none was recorded before (R143). -/
theorem srqs_leave_pending {wss : List (List Word)} {s : State} (hi : s.init = true)
    (h : s.srqPending = true ∨ wss ≠ []) :
    ∃ t, runOps (wss.map .srq) s = .next t ∧ t.init = true ∧ t.srqPending = true := by
  induction wss generalizing s with
  | nil => exact ⟨s, rfl, hi, h.resolve_right (· rfl)⟩
  | cons ws wss ih =>
    obtain ⟨t, hrun, ht⟩ := ih (s := serviced ws s) hi (.inl rfl)
    exact ⟨t, (Memory.runOps_cons (exec_srq hi ws)).trans hrun, ht⟩

/-- A query returns what was recorded and leaves nothing recorded for the next one (R125). -/
theorem srqPend_reports {s : State} (hi : s.init = true) : ∃ t, exec .srqPend s = .next t ∧
    t.init = true ∧ t.srqPending = false ∧ t.ret = .bool s.srqPending :=
  ⟨_, HostOps.exec_srqPend hi, hi, rfl, rfl⟩

/-- Settles O14: the requests leave one recorded, the first query takes it, and the second finds none. -/
theorem requestsReportedOnce : Obligations.RequestsReportedOnce := by
  intro s wss hi hne
  obtain ⟨r, hsrqs, hri, hrp⟩ := srqs_leave_pending hi (.inr hne)
  obtain ⟨t, hfirst, hti, htp, htret⟩ := srqPend_reports hri
  obtain ⟨u, hsecond, -, -, huret⟩ := srqPend_reports hti
  have hrun : runOps (wss.map .srq ++ [.srqPend]) s = .next t := calc
    _ = runOps [.srqPend] r := runOps_append hsrqs
    _ = .next t := Memory.runOps_cons hfirst
  exact ⟨t, u, hrun, htret.trans (congrArg Ret.bool hrp), hsecond, huret.trans (congrArg Ret.bool htp)⟩

end Sys2Proof.Hazards

/-! The listen frame outside R104's domain (40_frame_codec.md section 2): the other branch of the length guard whose
first branch is `FrameCodec.exec_encListen`. -/

namespace Sys2Proof.FrameCodec

open Sys2Proof.Machine

/-- Settles O3: above 8 bytes the length guard of ENC.LISTEN fails, so no words are built. -/
theorem longListenFrameRefused : Obligations.LongListenFrameRefused := by
  intro s p hlong
  have houtside : ¬ p.length ≤ listenMax := Nat.not_le.mpr hlong
  exact if_neg houtside

end Sys2Proof.FrameCodec
